-- ==== Sys2Proof/Word.lean ====
section
/-! DEFINITION. The words of the JF64 (00_scope section 5.2) and the fixed tables its blocks are made of. -/

namespace Sys2Proof

/-- A word: 32 bits (00_scope, 5.2). -/
abbrev Word := BitVec 32

/-- A byte of memory. -/
abbrev Byte := BitVec 8

/-- A byte address of the 1 MiB memory space (00_scope, section 2). -/
abbrev Addr := BitVec 20

/-- Station numbers 0-63, feeder numbers 0-7, anemometer numbers 0-7, segment numbers 0-31 and source numbers
0-111 (00_scope section 1, R76). -/
abbrev StationNo := Fin 64
abbrev FeederNo := Fin 8
abbrev AnemometerNo := Fin 8
abbrev SegmentNo := Fin 32
abbrev SourceNo := Fin 112

/-- A table with one record for each number below `n`. -/
abbrev Table (α : Type) (n : Nat) := Vector α n

end Sys2Proof
end

