-- ==== Sys2Proof/Config.lean ====
section
/-! DEFINITION. What an implementation fixes, the records that setup fixes for a GUARD period (R3, R54, R97, R98,
R162), and the free value of a snapshot's ordinal word. -/

namespace Sys2Proof

namespace Config

/-- A posted write buffer holds up to 8 writes (R158). -/
def bufferDepth : Nat := 8

/-- The record buffer holds up to 16 records (R189). -/
def recordDepth : Nat := 16

/-- What a byte of memory that nothing has written reads as. DESIGN CHOICE (log 14), unsafe: the spec gives the
memory no contents at power-up. -/
def unwrittenByte : Byte := 0

/-- The completion word of a snapshot whose ordinal does not fit in 32 bits. A free value (log 23): the spec gives
the ordinal count no width and states no word for such an ordinal (R194, R195). -/
opaque ordinalWordBeyond : Nat → Word

end Config

/-- Airflow direction: FWD toward the east portal, REV toward the west portal (00_scope, 5.4). -/
inductive Dir where
  | fwd
  | rev
  deriving DecidableEq, Repr, Inhabited

/-- A fan's speed step (00_scope, 5.4). -/
inductive Speed where
  | off
  | low
  | high
  deriving DecidableEq, Repr, Inhabited

/-- A fan command: a direction and a speed step (00_scope, 5.4). -/
structure FanCommand where
  dir : Dir
  speed : Speed
  deriving DecidableEq, Repr, Inhabited

/-- A station's static record (R3). -/
structure StationStatic where
  present : Bool
  ganged : Bool
  feeder : Nat
  segment : Nat
  leader : Nat
  spare : Nat
  spareSet : Bool
  dwell : Nat
  startTimeout : Nat
  stopTimeout : Nat
  deriving DecidableEq, Repr

/-- A feeder's static record (R54). -/
structure FeederStatic where
  slots : Nat
  spacing : Nat
  restoreDelay : Nat
  deriving DecidableEq, Repr

/-- The kinds of window (R162). -/
inductive WindowKind where
  | command
  | feedback
  | mailbox
  | report
  | snapshot
  | guarded
  deriving DecidableEq, Repr

/-- An entry of the window table (R162, R163; layout 12.6). `kind` is `none` for a code that is no kind. -/
structure Window where
  base : Nat
  size : Nat
  kind : Option WindowKind
  readOnlyControl : Bool
  readOnlyScanner : Bool
  deriving DecidableEq, Repr

/-- A plan header (R97). `watchLength` is the length field as written, `watch` its four anemometer fields. -/
structure PlanHeader where
  first : Nat
  count : Nat
  watchLength : Nat
  watch : List Nat
  velocity : Nat
  hold : Nat
  deadline : Nat
  deriving DecidableEq, Repr

/-- A plan pool entry (R98), its role, tier and speed as the codes of 12.6. -/
structure PoolEntry where
  role : Nat
  tier : Nat
  speed : Nat
  rank : Nat
  subject : Nat
  deriving DecidableEq, Repr

end Sys2Proof
end

