-- ==== Sys2Proof/Syntax.lean ====
section
/-! DEFINITION. The commands of the JF64: one constructor for each row of spec/opcode_table.json. The rows give no
operands; those here are the numbers of the port, station, feeder or source an event belongs to, and the access a
master presents (log 2). Every other event takes what it acts on from the state. -/

namespace Sys2Proof

/-- The two slave ports (R158). -/
inductive Port where
  | control
  | scanner
  deriving DecidableEq, Repr

/-- A write a master presents: address, data and four byte enables (R158). -/
structure PortWrite where
  addr : Addr
  data : Word
  enables : BitVec 4
  deriving DecidableEq, Repr

/-- An access a master presents: a write or a read of one word (R158; log 3). -/
inductive PortAccess where
  | write (w : PortWrite)
  | read (addr : Addr)
  deriving DecidableEq, Repr

/-- The commands, in the order of spec/opcode_table.json. -/
inductive Instr where
  | reset
  | timeStampTick
  | portWrite (p : Port) (a : PortAccess)
  | heldWriteAccepted (p : Port)
  | writeDisposition (p : Port)
  | commandWrite
  | memoryGrant
  | plainWrite
  | sourceWrite
  | argumentWrite
  | declare
  | replan
  | release
  | alarmAck
  | lock
  | tripReset
  | snapshot
  | unknownRequestKind
  | tailWrite
  | recordDue
  | overflow
  | recordHeadCompletion
  | writeBackCompletion
  | snapshotComplete
  | setupWrite
  | close
  | readIn
  | guardEntry
  | grant (f : FeederNo)
  | startTimeout (n : StationNo)
  | stopTimeoutExpiry (n : StationNo)
  | dwellExpiry (n : StationNo)
  | spacingExpiry (f : FeederNo)
  | restoreExpiry (f : FeederNo)
  | ageExpiry (k : SourceNo)
  | holdExpiry
  | lossExpiry
  | deadlineExpiry
  | t1Expiry
  | t2Expiry
  | automaticDeclaration
  | declarationAnswer
  | declarationNotice
  | availabilityReport
  | writeHeldAtPort (p : Port) (a : PortAccess)
  deriving DecidableEq, Repr

end Sys2Proof
end

