-- ==== Sys2Proof/Decode.lean ====
section
/-! DEFINITION. The command a word spells by the bits of spec/opcode_table.json. -/

namespace Sys2Proof

/-- The command that a word of `nbits` bits spells. No row of spec/opcode_table.json gives bits ("fields": [] on
every row), so no word spells a command. -/
def decodeTableWord (_nbits _w : Nat) : Option Instr := none

end Sys2Proof
end

