-- ==== Sys2Proof/Machine/State.lean ====
section
/-! DEFINITION. The state of the JF64: every piece of state the spec gives the part, as plain data, and its values
after the reset. -/

namespace Sys2Proof.Machine

open Sys2Proof

/-- A timer: tenths remaining, or not running. A timer at `some 0` has run out and its expiry is due (R1, log 9). -/
abbrev Timer := Option Nat

/-- Sparse data by key, in one canonical form: keys strictly rising, no entry equal to the default. -/
abbrev Cells (α : Type) := List (Nat × α)

/-- The memory behind the memory port, byte by byte (log 13, log 14). -/
abbrev Memory := List Host.Cell

/-- The state of the whole part (00_scope section 3). The incident mode is the incident record's presence (R100). -/
inductive PartState where
  | capture
  | entering
  | guard
  deriving DecidableEq, Repr

/-! ### Stations (chapters 1 and 2) -/

/-- The eight lifecycle states (R24). -/
inductive LifeState where
  | off
  | queued
  | starting
  | running
  | stopping
  | dwell
  | tripped
  | locked
  deriving DecidableEq, Repr

/-- Which source decides the requested command (R9). -/
inductive Authority where
  | control
  | plan
  deriving DecidableEq, Repr

/-- A plan target's role, a SPARE with the station it stands in for (R8). -/
inductive TargetRole where
  | run
  | holdOff
  | spare (standsFor : StationNo)
  deriving DecidableEq, Repr

/-- A plan target (R8). The speed of a HOLD_OFF target is not used and is kept at OFF. -/
structure PlanTarget where
  role : TargetRole
  dir : Dir
  speed : Speed
  rank : Nat
  tier : Nat
  deriving DecidableEq, Repr

/-- The drive states of a station word (R86). -/
inductive DriveState where
  | stopped
  | accelerating
  | running
  | decelerating
  deriving DecidableEq, Repr

/-- The contents of a station feedback word (R86). The speed is `none` for the unknown code 3. -/
structure Observed where
  drive : DriveState
  dir : Dir
  speed : Option Speed
  trip : Bool
  localSwitch : Bool
  deriving DecidableEq, Repr

/-- The lock causes held (R6). -/
structure LockSet where
  operator : Bool
  localSwitch : Bool
  deriving DecidableEq, Repr

/-- The trip causes (R6, R46). -/
inductive TripCause where
  | driveTrip
  | startFail
  | noFeedback
  | unexpectedStop
  deriving DecidableEq, Repr

/-- A station's dynamic record (R6). Requested and authority are derived (R9). `entered` says that the station has
entered a state since the last write of its word was granted: a completion confirms only when it is clear (R19,
log 16). -/
structure Station where
  state : LifeState
  request : FanCommand
  target : Option PlanTarget
  effective : FanCommand
  writeBackPending : Bool
  timer : Timer
  observed : Option Observed
  locks : LockSet
  tripCause : Option TripCause
  stopFlag : Bool
  entered : Bool
  deriving DecidableEq, Repr

/-- A station's dynamic record after the reset (R22). -/
def Station.reset : Station :=
  { state := .off
    request := { dir := .fwd, speed := .off }
    target := none
    effective := { dir := .fwd, speed := .off }
    writeBackPending := false
    timer := none
    observed := none
    locks := { operator := false, localSwitch := false }
    tripCause := none
    stopFlag := false
    entered := false }

/-! ### Feeders (chapter 3) -/

/-- A feeder's supply state (R55). -/
inductive Supply where
  | present
  | lost
  | restoring
  deriving DecidableEq, Repr

/-- The kind of a start queue entry (R58). -/
inductive EntryKind where
  | start
  | raise
  deriving DecidableEq, Repr

/-- The class of a start queue entry, with the rank that is held only when the class is PLAN (R58). -/
inductive EntryClass where
  | plan (rank : Nat)
  | control
  deriving DecidableEq, Repr

/-- A start queue entry (R58). The entry time is held as the count of tenths whose low 32 bits are the time stamp
(log 10). -/
structure QueueEntry where
  station : StationNo
  kind : EntryKind
  target : FanCommand
  cls : EntryClass
  entryTime : Nat
  deriving DecidableEq, Repr

/-- A feeder's dynamic record (R55). -/
structure Feeder where
  supply : Supply
  slotsInUse : Nat
  spacing : Timer
  restore : Timer
  queue : List QueueEntry
  deriving DecidableEq, Repr

/-- A feeder's record after the reset and at GUARD entry (R74, R75). -/
def Feeder.reset : Feeder :=
  { supply := .present, slotsInUse := 0, spacing := none, restore := none, queue := [] }

/-! ### Field sources (chapter 4) -/

/-- A source's freshness (R79). -/
inductive Freshness where
  | unseen
  | fresh
  | stale
  deriving DecidableEq, Repr

/-- A source record (R79). -/
structure Source where
  freshness : Freshness
  age : Timer
  lastWrite : Nat
  lastInterval : Nat
  maxInterval : Nat
  staleCount : Nat
  deriving DecidableEq, Repr

/-- A source record after the reset (R93). -/
def Source.reset : Source :=
  { freshness := .unseen, age := none, lastWrite := 0, lastInterval := 0, maxInterval := 0, staleCount := 0 }

/-! ### Incident and airflow (chapters 5 and 6) -/

/-- Who declared the incident (R100). -/
inductive Origin where
  | declared
  | automatic
  deriving DecidableEq, Repr

/-- The airflow state of an active incident (R100). -/
inductive AirflowPhase where
  | pending
  | established
  | short
  deriving DecidableEq, Repr

/-- The incident record (R100). -/
structure Incident where
  number : Nat
  origin : Origin
  segment : Nat
  flow : Dir
  plan : Nat
  declaredTime : Nat
  boost : Bool
  airflow : AirflowPhase
  deriving DecidableEq, Repr

/-- A report that a station has become available or unavailable (R50, R72). -/
structure AvailabilityReport where
  station : StationNo
  available : Bool
  deriving DecidableEq, Repr

/-- An automatic declaration request (R148). -/
structure AutoRequest where
  segment : Nat
  flow : Dir
  number : Nat
  deriving DecidableEq, Repr

/-- The incident controller's answer to an automatic declaration request (R107, R149). -/
structure AutoAnswer where
  taken : Bool
  request : AutoRequest
  deriving DecidableEq, Repr

/-- An entry of the anemometer table (R125). -/
structure Anemometer where
  fresh : Bool
  velocity : Int
  valid : Bool
  deriving DecidableEq, Repr

/-- The airflow monitor's own fields (R124). Its airflow state is a field of the incident record, IDLE without one. -/
structure AirflowMonitor where
  hold : Timer
  deadline : Timer
  pendingSince : Nat
  anemometers : Table Anemometer 8
  deriving DecidableEq, Repr

/-- The airflow monitor after the reset and at GUARD entry (R139). -/
def AirflowMonitor.reset : AirflowMonitor :=
  { hold := none, deadline := none, pendingSince := 0
    anemometers := Vector.replicate 8 { fresh := false, velocity := 0, valid := false } }

/-! ### Alarms (chapter 7) -/

/-- A segment's condition (R140). -/
inductive Condition where
  | normal
  | alarm
  | fault
  deriving DecidableEq, Repr

/-- The covering of an alarm list entry (R141). -/
inductive Covering where
  | uncovered
  | ack
  | incident
  deriving DecidableEq, Repr

/-- An alarm list entry (R141). -/
structure AlarmEntry where
  segment : SegmentNo
  alarmTime : Nat
  covering : Covering
  deriving DecidableEq, Repr

/-- The escalation states (R140). -/
inductive Escalation where
  | idle
  | waitControl
  | waitFinal
  deriving DecidableEq, Repr

/-- The alarm escalator's fields (R140). -/
structure AlarmEscalator where
  conditions : Table Condition 32
  alarmList : List AlarmEntry
  escalation : Escalation
  stage : Timer
  nextNumber : Nat
  deriving DecidableEq, Repr

/-- The alarm escalator after the reset and at GUARD entry (R157). -/
def AlarmEscalator.reset : AlarmEscalator :=
  { conditions := Vector.replicate 32 .normal, alarmList := [], escalation := .idle, stage := none, nextNumber := 32768 }

/-! ### Image writer (chapter 10) -/

/-- The eight record classes (R193, codes of 12.4). -/
inductive RecordClass where
  | incident
  | airflow
  | alarm
  | station
  | feedback
  | supply
  | access
  | ring
  deriving DecidableEq, Repr

/-- The record kinds (12.4). -/
inductive RecordKind where
  | incidentDeclared
  | incidentReplanned
  | incidentAdopted
  | incidentReleased
  | spareEngaged
  | spareNone
  | airflowEstablished
  | airflowLost
  | boostApplied
  | airflowShort
  | detectorAlarm
  | detectorCleared
  | detectorFault
  | alarmEscalation
  | stationTripped
  | stopTimeout
  | lockChanged
  | sourceStale
  | sourceRestored
  | feederLost
  | feederRestored
  | accessRefused
  | overflow
  deriving DecidableEq, Repr

/-- A report record: kind, time stamp, subject and the two parts of its detail (R189, 12.4). -/
structure ReportRecord where
  kind : RecordKind
  stamp : Word
  subject : Word
  detailA : BitVec 16
  detailB : Word
  deriving DecidableEq, Repr

/-- The entries of the work list (R187). A record entry carries whether it has come due and passed its check
(R190), an OVERFLOW entry the record it has made at its turn (R192). -/
inductive WorkEntry where
  | station (n : StationNo)
  | reply (word : Word)
  | record (due : Bool)
  | droppedCount
  | overflow (made : Option ReportRecord)
  | snapshot
  | setupResult (word : Word)
  | entering (addr : Nat) (word : Word) (last : Bool)
  deriving DecidableEq, Repr

/-- The four words of a snapshot slot (R194, 12.5). -/
structure SnapshotSlot where
  station : StationNo
  words : List Word
  deriving DecidableEq, Repr

/-- A snapshot in progress (R194). -/
structure Snapshot where
  stamp : Word
  maskLow : Word
  maskHigh : Word
  ordinal : Nat
  slots : List SnapshotSlot
  deriving DecidableEq, Repr

/-- The image writer's fields (R187-R196). `progress` counts the accesses of the head entry already granted: that
entry's accesses are under way exactly when it is above 0 (R192). -/
structure ImageWriter where
  workList : List WorkEntry
  progress : Nat
  buffer : List ReportRecord
  head : Nat
  checkedTail : Nat
  ringTail : Nat
  dropped : Nat
  unread : List RecordClass
  snapshot : Option Snapshot
  ordinal : Nat
  interrupt : Bool
  deriving DecidableEq, Repr

/-- The image writer after the reset (R196). -/
def ImageWriter.reset : ImageWriter :=
  { workList := [], progress := 0, buffer := [], head := 0, checkedTail := 0, ringTail := 0, dropped := 0
    unread := [], snapshot := none, ordinal := 0, interrupt := false }

/-! ### Access path (chapter 8) -/

/-- What acts at the completion of a passing write (R162): nothing, the feedback monitor, the argument capture, the
request taker, the report ring, and in CAPTURE the copy and the close (R172). -/
inductive PassKind where
  | plain
  | source (k : SourceNo)
  | argument (n : Fin 6)
  | request
  | tail
  | setup
  | close
  deriving DecidableEq, Repr

/-- A port (R158-R161): its posted write buffer, the disposition given to the head of it, the access its master
presents without being acknowledged, the read it has taken, and the data it last returned. -/
structure PortState where
  buffer : List PortWrite
  disposed : Option PassKind
  held : Option PortAccess
  read : Option Addr
  readData : Option Word
  deriving DecidableEq, Repr

/-- A port with nothing in it. -/
def PortState.reset : PortState :=
  { buffer := [], disposed := none, held := none, read := none, readData := none }

/-- The three requesters of the memory port (R169). -/
inductive Requester where
  | image
  | scanner
  | control
  deriving DecidableEq, Repr

/-- A requester's base priority and lost count (R170). -/
structure Priority where
  base : Nat
  lost : Nat
  deriving DecidableEq, Repr

/-- The memory port arbiter (R170). -/
structure Arbiter where
  image : Priority
  scanner : Priority
  control : Priority
  deriving DecidableEq, Repr

/-- The arbiter after the reset (R171, R174). -/
def Arbiter.reset : Arbiter :=
  { image := { base := 0, lost := 0 }, scanner := { base := 0, lost := 0 }, control := { base := 0, lost := 0 } }

/-- The access at the memory port: a word read or a word written with byte enables. -/
inductive Transfer where
  | read (addr : Nat)
  | write (addr : Nat) (data : Word) (enables : BitVec 4)
  deriving DecidableEq, Repr

/-- The block an access's completion is delivered to (R169, R187). -/
inductive Owner where
  | port (kind : PassKind)
  | portRead (p : Port)
  | none
  | station (n : StationNo)
  | recordHead (cls : RecordClass)
  | snapshotEnd
  | readIn (n : StationNo)
  | enteringEnd
  deriving DecidableEq, Repr

/-- The access in flight at the memory port (R159, R169). -/
structure Flight where
  requester : Requester
  transfer : Transfer
  owner : Owner
  deriving DecidableEq, Repr

/-! ### The whole part -/

/-- A turn within an event that reaches several stations: one station takes its claim, or a feeder's grant is taken
between two claims (R16, R65, R110). -/
inductive Turn where
  | claim (n : StationNo)
  | grant (f : FeederNo)
  deriving DecidableEq, Repr

/-- The state of the part, the queue of commands that wait, and the turns that the events to come which reach several
stations will take. The turns are the model's own field: a free value that nothing constrains and no command sets
(log 11). -/
structure State where
  pending : List Instr
  turns : List (List Turn)
  part : PartState
  tenths : Nat
  mem : Memory
  copy : Cells Word
  closeCount : Nat
  reading : List StationNo
  control : PortState
  scanner : PortState
  arbiter : Arbiter
  inFlight : Option Flight
  args : Table Word 6
  requestCount : Nat
  stations : Table Station 64
  feeders : Table Feeder 8
  sources : Table Source 112
  incident : Option Incident
  view : Option (Table Bool 64)
  reports : List AvailabilityReport
  autoRequests : List AutoRequest
  answers : List AutoAnswer
  notices : Nat
  airflow : AirflowMonitor
  alarms : AlarmEscalator
  writer : ImageWriter
  deriving DecidableEq, Repr

/-- The part right after the reset that follows power-up (R22, R74, R93, R123, R139, R157, R174, R186, R196). The
reset leaves memory and the masters' lines alone: here nothing is written, presented or taken (log 14, log 24), and the
time stamp, which does not run in CAPTURE, stands at 0 (log 10). -/
def State.reset : State :=
  { pending := []
    turns := []
    part := .capture
    tenths := 0
    mem := []
    copy := []
    closeCount := 0
    reading := []
    control := PortState.reset
    scanner := PortState.reset
    arbiter := Arbiter.reset
    inFlight := none
    args := Vector.replicate 6 0
    requestCount := 0
    stations := Vector.replicate 64 Station.reset
    feeders := Vector.replicate 8 Feeder.reset
    sources := Vector.replicate 112 Source.reset
    incident := none
    view := none
    reports := []
    autoRequests := []
    answers := []
    notices := 0
    airflow := AirflowMonitor.reset
    alarms := AlarmEscalator.reset
    writer := ImageWriter.reset }

/-- Why the machine stops. Nothing in the spec stops the part: it answers every error by a record, a reply, a setup
result or a trip, all of which are next states. No command raises a fault (log 29). -/
inductive Fault where
  deriving DecidableEq, Repr

/-- Why a command has no meaning. -/
inductive Refusal where
  /-- Raised only by an arm of exec for a command that has no meaning yet; every command has one, so nothing raises
  it. Safe. -/
  | notModelled (mnemonic : String)
  deriving DecidableEq, Repr

end Sys2Proof.Machine
end

