-- ==== Sys2Proof/Machine/Ops.lean ====
section
/-! DEFINITION. The named operations over the state: sparse cells and memory, tables, timers, start queues, and the
image writer's hand-over of records and work list entries. A block has no exception entry (the row's cut). -/

namespace Sys2Proof.Machine

open Sys2Proof

/-! ### Sparse cells in canonical form -/

/-- What is held under a key: the default where nothing is listed. -/
def Cells.read {α : Type} (dflt : α) : Cells α → Nat → α
  | [], _ => dflt
  | (k, v) :: rest, a => if k = a then v else Cells.read dflt rest a

/-- The cells with a key taken out. -/
def Cells.erase {α : Type} : Cells α → Nat → Cells α
  | [], _ => []
  | (k, v) :: rest, a => if k = a then Cells.erase rest a else (k, v) :: Cells.erase rest a

/-- The cells with an unlisted key put in its place. -/
def Cells.insert {α : Type} : Cells α → Nat → α → Cells α
  | [], a, v => [(a, v)]
  | (k, x) :: rest, a, v => if a < k then (a, v) :: (k, x) :: rest else (k, x) :: Cells.insert rest a v

/-- A write: the default removes the entry, any other value replaces it. -/
def Cells.write {α : Type} [DecidableEq α] (dflt : α) (c : Cells α) (a : Nat) (v : α) : Cells α :=
  if v = dflt then Cells.erase c a else Cells.insert (Cells.erase c a) a v

/-- The canonical form above a key: keys strictly rising, all at least `lo`, no default. -/
def Cells.wfFrom {α : Type} [DecidableEq α] (dflt : α) : Nat → Cells α → Bool
  | _, [] => true
  | lo, (k, v) :: rest => decide (lo ≤ k) && decide (v ≠ dflt) && Cells.wfFrom dflt (k + 1) rest

/-- The canonical form. -/
def Cells.wf {α : Type} [DecidableEq α] (dflt : α) (c : Cells α) : Bool := Cells.wfFrom dflt 0 c

/-! ### Memory -/

/-- Memory is in its canonical form (log 14). -/
def Memory.wf (m : Memory) : Bool := Cells.wf Config.unwrittenByte m

/-- One byte of memory. -/
def Memory.readByte (m : Memory) (a : Nat) : Byte := Cells.read Config.unwrittenByte m a

/-- One word of memory: lane i of the word is the byte at address + i (log 13). -/
def Memory.readWord (m : Memory) (a : Nat) : Word :=
  m.readByte (a + 3) ++ m.readByte (a + 2) ++ m.readByte (a + 1) ++ m.readByte a

/-- One lane of a write, made only if its byte enable is set (R158). -/
def Memory.writeLane (m : Memory) (a : Nat) (data : Word) (enables : BitVec 4) (i : Nat) : Memory :=
  if enables.getLsbD i then Cells.write Config.unwrittenByte m (a + i) (data.extractLsb' (8 * i) 8) else m

/-- A write of the enabled lanes of one word. -/
def Memory.writeWord (m : Memory) (a : Nat) (data : Word) (enables : BitVec 4) : Memory :=
  (((m.writeLane a data enables 0).writeLane a data enables 1).writeLane a data enables 2).writeLane a data enables 3

/-- The word address the lines A19-A2 carry: the two low bits of a byte address are not on the bus (12.8, log 25). -/
def wordAddr (a : Nat) : Nat := a % 1048576 / 4 * 4

/-- All four byte enables. -/
def allLanes : BitVec 4 := 15

end Sys2Proof.Machine

namespace Sys2Proof

/-! ### Tables -/

/-- The record of a number. -/
def Table.nth {α : Type} {n : Nat} (t : Table α n) (i : Fin n) : α := Vector.get t i

/-- The table with the record of a number replaced. -/
def Table.put {α : Type} {n : Nat} (t : Table α n) (i : Fin n) (x : α) : Table α n := Vector.set t i.val x i.isLt

/-- The table with every record changed alike. -/
def Table.mapAll {α : Type} {n : Nat} (f : α → α) (t : Table α n) : Table α n :=
  Vector.mk (Array.mk (t.toArray.toList.map f)) (by simp)

/-- The table given by number. -/
def Table.tabulate {α : Type} {n : Nat} (f : Fin n → α) : Table α n :=
  Vector.mk (Array.mk (List.ofFn f)) (by simp)

end Sys2Proof

namespace Sys2Proof.Machine

open Sys2Proof

/-! ### Timers and time -/

/-- A running timer falls by 1 at each tenth. One that has run out stands at 0 until its expiry is taken, which the next
tenth waits for (R1, log 9). -/
def Timer.tick (t : Timer) : Timer := t.map (fun n => n - 1)

/-- The timer's expiry is due. -/
def Timer.due (t : Timer) : Bool := t == some 0

/-- The 32-bit time stamp of a count of tenths (R1, log 10). -/
def stampOf (tenths : Nat) : Word := BitVec.ofNat 32 tenths

/-- The current time stamp. -/
def State.stamp (s : State) : Word := stampOf s.tenths

/-! ### Reading the state -/

/-- A station's dynamic record. -/
def State.station (s : State) (n : StationNo) : Station := s.stations.nth n

/-- A feeder's dynamic record. -/
def State.feeder (s : State) (f : FeederNo) : Feeder := s.feeders.nth f

/-- A source record. -/
def State.source (s : State) (k : SourceNo) : Source := s.sources.nth k

/-- A port. -/
def State.port (s : State) : Port → PortState
  | .control => s.control
  | .scanner => s.scanner

/-- The state with a port replaced. -/
def State.withPort (s : State) (p : Port) (x : PortState) : State :=
  { s with
    control := match p with
      | .control => x
      | .scanner => s.control
    scanner := match p with
      | .control => s.scanner
      | .scanner => x }

/-- All station numbers, ascending. -/
def allStations : List StationNo := List.finRange 64

/-! ### The work list and the record buffer (R187, R189) -/

/-- An entry joins the tail of the work list. -/
def ImageWriter.append (w : ImageWriter) (e : WorkEntry) : ImageWriter := { w with workList := w.workList ++ [e] }

/-- A coalesced entry joins the tail unless it already waits (R18, R187). -/
def ImageWriter.placeOnce (w : ImageWriter) (e : WorkEntry) : ImageWriter :=
  { w with workList := if w.workList.contains e then w.workList else w.workList ++ [e] }

/-- One record is dropped: the dropped count rises by 1, staying at 65535, and a dropped-count entry is placed
(R189, R190). -/
def ImageWriter.countDrop (w : ImageWriter) : ImageWriter :=
  { w with dropped := min 65535 (w.dropped + 1) }.placeOnce .droppedCount

/-- A record is handed to the record buffer: it joins with its record entry, or is dropped when the buffer holds 16
(R189). -/
def ImageWriter.hand (w : ImageWriter) (r : ReportRecord) : ImageWriter :=
  if w.buffer.length < Config.recordDepth then
    { w with buffer := w.buffer ++ [r], workList := w.workList ++ [.record false] }
  else w.countDrop

/-- Records are handed in the order made. -/
def ImageWriter.handAll (w : ImageWriter) (rs : List ReportRecord) : ImageWriter := rs.foldl ImageWriter.hand w

/-- A block hands its records to the image writer. -/
def State.hand (s : State) (rs : List ReportRecord) : State := { s with writer := s.writer.handAll rs }

/-! ### Start queues (R59-R62) -/

/-- The rank order of two classes (R59): PLAN before CONTROL, lower rank first; equal classes are neither. -/
def EntryClass.before : EntryClass → EntryClass → Bool
  | .plan r, .plan r' => decide (r < r')
  | .plan _, .control => true
  | .control, _ => false

/-- One entry stands ahead of another (R59): by class and rank, then by entry time, then by station number. -/
def QueueEntry.before (a b : QueueEntry) : Bool :=
  a.cls.before b.cls ||
    (decide (a.cls = b.cls) && (decide (a.entryTime < b.entryTime) ||
      (decide (a.entryTime = b.entryTime) && decide (a.station < b.station))))

/-- An insert puts the entry at its ordered place (R60). -/
def queueInsert (e : QueueEntry) : List QueueEntry → List QueueEntry
  | [] => [e]
  | x :: rest => if e.before x then e :: x :: rest else x :: queueInsert e rest

/-- A remove takes the station's entry out; the others keep their order (R62). -/
def queueRemove (n : StationNo) (q : List QueueEntry) : List QueueEntry := q.filter (fun e => e.station != n)

/-- The station's entry, if it has one. -/
def queueFind (n : StationNo) (q : List QueueEntry) : Option QueueEntry := q.find? (fun e => e.station == n)

/-- A retarget replaces target and class of the station's entry (R61). With the class and rank unchanged the entry
stays where it stands; otherwise it is taken out and put back at its ordered place with its kind and entry time. -/
def queueRetarget (n : StationNo) (target : FanCommand) (cls : EntryClass) (q : List QueueEntry) : List QueueEntry :=
  match queueFind n q with
  | none => q
  | some e =>
    if e.cls = cls then q.map (fun x => if x.station = n then { x with target := target } else x)
    else queueInsert { e with target := target, cls := cls } (queueRemove n q)

end Sys2Proof.Machine
end

