-- ==== Sys2Proof/Machine/Operands.lean ====
section
/-! DEFINITION. The layouts of chapter 12: every field of the words the part takes from a write, every word the part
writes, and the setup block's tables as the internal copy holds them (log 19). -/

namespace Sys2Proof.Machine

open Sys2Proof

/-! ### Bit fields (12, R197) -/

/-- Bits hi:lo of a word, as an unsigned number. -/
def bits {n : Nat} (w : BitVec n) (hi lo : Nat) : Nat := w.toNat / 2 ^ lo % 2 ^ (hi + 1 - lo)

/-- One bit of a word. -/
def flag {n : Nat} (w : BitVec n) (i : Nat) : Bool := bits w i i == 1

/-- A value placed in a field that is `width` bits wide from bit `lo` up. -/
def placed (lo width v : Nat) : Nat := v % 2 ^ width * 2 ^ lo

/-- A truth value as a bit. -/
def bitOf (b : Bool) : Nat := if b then 1 else 0

/-! ### Codes -/

/-- Direction code: 0 FWD, 1 REV (12.1). -/
def dirCode : Dir → Nat
  | .fwd => 0
  | .rev => 1

/-- The direction of a one-bit field (12.1). -/
def dirOfBit (b : Bool) : Dir := if b then .rev else .fwd

/-- Speed code: 0 OFF, 1 LOW, 2 HIGH (12.1). -/
def speedCode : Speed → Nat
  | .off => 0
  | .low => 1
  | .high => 2

/-- The speed of a two-bit code; code 3 is none (12.1, 12.2). -/
def speedOfCode : Nat → Option Speed
  | 0 => some .off
  | 1 => some .low
  | 2 => some .high
  | _ => none

/-- Lifecycle state code (12.1). -/
def LifeState.code : LifeState → Nat
  | .off => 0
  | .queued => 1
  | .starting => 2
  | .running => 3
  | .stopping => 4
  | .dwell => 5
  | .tripped => 6
  | .locked => 7

/-- Trip cause code, 0 for none (12.1). -/
def tripCauseCode : Option TripCause → Nat
  | none => 0
  | some .driveTrip => 1
  | some .startFail => 2
  | some .noFeedback => 3
  | some .unexpectedStop => 4

/-- Authority code (12.1). -/
def Authority.code : Authority → Nat
  | .control => 0
  | .plan => 1

/-- Drive state code (12.2). -/
def DriveState.code : DriveState → Nat
  | .stopped => 0
  | .accelerating => 1
  | .running => 2
  | .decelerating => 3

/-- The drive state of a two-bit code (12.2). -/
def driveOfCode : Nat → DriveState
  | 0 => .stopped
  | 1 => .accelerating
  | 2 => .running
  | _ => .decelerating

/-- Freshness code (12.4). -/
def Freshness.code : Freshness → Nat
  | .unseen => 0
  | .fresh => 1
  | .stale => 2

/-- Supply state code (12.4). -/
def Supply.code : Supply → Nat
  | .present => 0
  | .lost => 1
  | .restoring => 2

/-- Detector condition code (12.2). -/
def Condition.code : Condition → Nat
  | .normal => 0
  | .alarm => 1
  | .fault => 2

/-- Covering code of a removed entry (12.4). -/
def Covering.code : Covering → Nat
  | .uncovered => 1
  | .ack => 2
  | .incident => 3

/-- Origin code (12.4). -/
def Origin.code : Origin → Nat
  | .declared => 0
  | .automatic => 1

/-- Port code of ACCESS_REFUSED (12.4). -/
def portCode : Port → Nat
  | .control => 0
  | .scanner => 1

/-- Record class code: also the bit of the class interrupt enables (12.4). -/
def RecordClass.code : RecordClass → Nat
  | .incident => 0
  | .airflow => 1
  | .alarm => 2
  | .station => 3
  | .feedback => 4
  | .supply => 5
  | .access => 6
  | .ring => 7

/-- The class of a record kind (12.4). -/
def RecordKind.cls : RecordKind → RecordClass
  | .incidentDeclared => .incident
  | .incidentReplanned => .incident
  | .incidentAdopted => .incident
  | .incidentReleased => .incident
  | .spareEngaged => .incident
  | .spareNone => .incident
  | .airflowEstablished => .airflow
  | .airflowLost => .airflow
  | .boostApplied => .airflow
  | .airflowShort => .airflow
  | .detectorAlarm => .alarm
  | .detectorCleared => .alarm
  | .detectorFault => .alarm
  | .alarmEscalation => .alarm
  | .stationTripped => .station
  | .stopTimeout => .station
  | .lockChanged => .station
  | .sourceStale => .feedback
  | .sourceRestored => .feedback
  | .feederLost => .supply
  | .feederRestored => .supply
  | .accessRefused => .access
  | .overflow => .ring

/-- The low four bits of a kind code (12.4). -/
def RecordKind.index : RecordKind → Nat
  | .incidentDeclared => 1
  | .incidentReplanned => 2
  | .incidentAdopted => 3
  | .incidentReleased => 4
  | .spareEngaged => 5
  | .spareNone => 6
  | .airflowEstablished => 1
  | .airflowLost => 2
  | .boostApplied => 3
  | .airflowShort => 4
  | .detectorAlarm => 1
  | .detectorCleared => 2
  | .detectorFault => 3
  | .alarmEscalation => 4
  | .stationTripped => 1
  | .stopTimeout => 2
  | .lockChanged => 3
  | .sourceStale => 1
  | .sourceRestored => 2
  | .feederLost => 1
  | .feederRestored => 2
  | .accessRefused => 1
  | .overflow => 1

/-- The kind code of a record: bits 7:4 give the class (12.4). -/
def RecordKind.code (k : RecordKind) : Nat := k.cls.code * 16 + k.index

/-! ### Reasons and outcomes (12.3) -/

/-- The reason codes 1-20 of 12.3, one set for replies and ACCESS_REFUSED records; code 10 is never written. -/
inductive Reason where
  | badArg
  | badSegment
  | busy
  | wrongNumber
  | noIncident
  | notInAlarm
  | tooLate
  | noStation
  | notTripped
  | stillTripped
  | badKind
  | setupClosed
  | port
  | readOnly
  | partialLanes
  | absent
  | ganged
  | badValue
  | badTail
  deriving DecidableEq, Repr

/-- The code of a reason (12.3). -/
def Reason.code : Reason → Nat
  | .badArg => 1
  | .badSegment => 2
  | .busy => 3
  | .wrongNumber => 4
  | .noIncident => 5
  | .notInAlarm => 6
  | .tooLate => 7
  | .noStation => 8
  | .notTripped => 9
  | .stillTripped => 11
  | .badKind => 12
  | .setupClosed => 13
  | .port => 14
  | .readOnly => 15
  | .partialLanes => 16
  | .absent => 17
  | .ganged => 18
  | .badValue => 19
  | .badTail => 20

/-- The answer to a request (R168): DONE, ACCEPTED, or REFUSED with its reason. -/
inductive Answer where
  | done
  | accepted
  | refused (r : Reason)
  deriving DecidableEq, Repr

/-- The outcome code of a reply (12.3). -/
def Answer.outcomeCode : Answer → Nat
  | .done => 1
  | .accepted => 2
  | .refused _ => 3

/-- The reason code of a reply, 0 for none (12.3). -/
def Answer.reasonCode : Answer → Nat
  | .done => 0
  | .accepted => 0
  | .refused r => r.code

/-- The request kinds of mailbox word 0 (12.3). -/
def kindIncident : Nat := 1
def kindAlarmAck : Nat := 2
def kindLock : Nat := 3
def kindTripReset : Nat := 4
def kindSnapshot : Nat := 5

/-- The actions of an INCIDENT request (12.3). -/
def actionDeclare : Nat := 1
def actionReplan : Nat := 2
def actionRelease : Nat := 3

/-- The reply word (12.3): kind echo, outcome, reason, request count. -/
def replyWord (kind : Nat) (a : Answer) (count : Nat) : Word :=
  BitVec.ofNat 32 (placed 0 8 kind + placed 8 2 a.outcomeCode + placed 16 8 a.reasonCode + placed 24 8 count)

/-! ### Command word (12.1) -/

/-- The three low bits of a fan command (12.1). -/
def fanCode (c : FanCommand) : Nat := placed 0 2 (speedCode c.speed) + placed 2 1 (dirCode c.dir)

/-- The direction of a command word. -/
def commandDir (w : Word) : Dir := dirOfBit (flag w 2)

/-- The speed of a command word; the illegal code 3 is none. -/
def commandSpeed (w : Word) : Option Speed := speedOfCode (bits w 1 0)

/-- The command read in from a command word: code 3 reads as OFF (R23). -/
def commandReadIn (w : Word) : FanCommand := { dir := commandDir w, speed := (commandSpeed w).getD .off }

/-! ### Feedback words (12.2) -/

/-- A station word's fields (R86). -/
def observedOf (w : Word) : Observed :=
  { drive := driveOfCode (bits w 5 4)
    dir := dirOfBit (flag w 2)
    speed := speedOfCode (bits w 1 0)
    trip := flag w 8
    localSwitch := flag w 9 }

/-- A feeder word reports PRESENT; any other supply code is LOST (R66, R87). -/
def supplyReported (w : Word) : Bool := bits w 7 0 == 1

/-- An anemometer word's signed reading (R88). -/
def anemometerReading (w : Word) : Int := (w.extractLsb' 0 16).toInt

/-- An anemometer word's valid flag (R88). -/
def anemometerValid (w : Word) : Bool := flag w 16

/-- A detector word's condition; any code that is neither NORMAL nor ALARM is FAULT (R89). -/
def conditionOf (w : Word) : Condition :=
  match bits w 7 0 with
  | 0 => .normal
  | 1 => .alarm
  | _ => .fault

/-! ### Report records (12.4) -/

/-- A record: its kind, the time stamp of the claim, its subject and its detail. -/
def mkRecord (kind : RecordKind) (stamp : Word) (subject detailA detailB : Nat) : ReportRecord :=
  { kind := kind, stamp := stamp, subject := BitVec.ofNat 32 subject, detailA := BitVec.ofNat 16 detailA
    detailB := BitVec.ofNat 32 detailB }

/-- The four words of a record. -/
def ReportRecord.words (r : ReportRecord) : List Word :=
  [BitVec.ofNat 32 (placed 0 8 r.kind.code + placed 16 16 r.detailA.toNat), r.stamp, r.subject, r.detailB]

/-! ### The setup block (12.6), as the internal copy holds it -/

namespace Setup

/-- The word of the copy at a word offset; a word never written reads 0 (R176, R186). -/
def word (c : Cells Word) (k : Nat) : Word := Cells.read 0 c k

def format (c : Cells Word) : Nat := (word c 0).toNat
def segmentCount (c : Cells Word) : Nat := bits (word c 1) 7 0
def feederCount (c : Cells Word) : Nat := bits (word c 1) 15 8
def anemometerCount (c : Cells Word) : Nat := bits (word c 1) 23 16
def windowCount (c : Cells Word) : Nat := bits (word c 1) 31 24
def planCount (c : Cells Word) : Nat := bits (word c 2) 7 0
def poolCount (c : Cells Word) : Nat := bits (word c 2) 26 16
def basePriorityImage (c : Cells Word) : Nat := bits (word c 4) 7 0
def basePriorityScanner (c : Cells Word) : Nat := bits (word c 4) 15 8
def basePriorityControl (c : Cells Word) : Nat := bits (word c 4) 23 16
def staleStation (c : Cells Word) : Nat := bits (word c 5) 15 0
def staleFeeder (c : Cells Word) : Nat := bits (word c 5) 31 16
def staleAnemometer (c : Cells Word) : Nat := bits (word c 6) 15 0
def staleDetector (c : Cells Word) : Nat := bits (word c 6) 31 16
def t1 (c : Cells Word) : Nat := bits (word c 7) 15 0
def t2 (c : Cells Word) : Nat := bits (word c 7) 31 16

/-- Bit n of the class interrupt enables belongs to class n (12.4, R193). -/
def classEnabled (c : Cells Word) (cls : RecordClass) : Bool := flag (word c 3) cls.code

/-- The word offsets of the table entries (R175). -/
def windowOffset (i : Nat) : Nat := 16 + 4 * i
def feederOffset (f : Nat) : Nat := 48 + 2 * f
def anemometerOffset (n : Nat) : Nat := 64 + n
def segmentOffset (n : Nat) : Nat := 72 + n
def indexOffset (k : Nat) : Nat := 104 + k
def stationOffset (n : Nat) : Nat := 256 + 4 * n
def planOffset (p : Nat) : Nat := 512 + 4 * (p - 1)
def poolOffset (e : Nat) : Nat := 1024 + e

/-- The kind of a window code (12.6). -/
def windowKindOf : Nat → Option WindowKind
  | 1 => some .command
  | 2 => some .feedback
  | 3 => some .mailbox
  | 4 => some .report
  | 5 => some .snapshot
  | 6 => some .guarded
  | _ => none

/-- Entry i of the window table. -/
def window (c : Cells Word) (i : Nat) : Window :=
  let w2 := word c (windowOffset i + 2)
  { base := (word c (windowOffset i)).toNat
    size := (word c (windowOffset i + 1)).toNat
    kind := windowKindOf (bits w2 7 0)
    readOnlyControl := flag w2 8
    readOnlyScanner := flag w2 9 }

/-- The entries of the window table in use (R162). -/
def windows (c : Cells Word) : List Window := (List.range (windowCount c)).map (window c)

/-- The window of a kind. -/
def windowOf (c : Cells Word) (k : WindowKind) : Option Window := (windows c).find? (fun w => w.kind == some k)

/-- The base of the window of a kind. Every kind but GUARDED has one after a successful close (R179); without one
the base is taken as 0 (log 26). -/
def baseOf (c : Cells Word) (k : WindowKind) : Nat :=
  match windowOf c k with
  | some w => w.base
  | none => 0

/-- The window that covers an address (R162). -/
def windowAt (c : Cells Word) (a : Nat) : Option Window :=
  (windows c).find? (fun w => decide (w.base ≤ a) && decide (a < w.base + w.size))

/-- Feeder f's static record (R54). -/
def feeder (c : Cells Word) (f : Nat) : FeederStatic :=
  { slots := bits (word c (feederOffset f)) 7 0
    spacing := bits (word c (feederOffset f)) 31 16
    restoreDelay := bits (word c (feederOffset f + 1)) 15 0 }

/-- Anemometer n's segment (R138). -/
def anemometerSegment (c : Cells Word) (n : Nat) : Nat := bits (word c (anemometerOffset n)) 7 0

/-- Anemometer n's orientation sign is negative (R88). -/
def anemometerNegative (c : Cells Word) (n : Nat) : Bool := flag (word c (anemometerOffset n)) 8

/-- Segment n's default flow: a code other than REV is FWD (R140, R197). -/
def defaultFlow (c : Cells Word) (n : Nat) : Dir := if bits (word c (segmentOffset n)) 7 0 = 1 then .rev else .fwd

/-- The plan index slot of a segment and flow: 2s for FWD, 2s + 1 for REV (R96). -/
def indexSlot (segment : Nat) (flow : Dir) : Nat := 2 * segment + dirCode flow

/-- The plan number of a segment and flow (R96). -/
def planFor (c : Cells Word) (segment : Nat) (flow : Dir) : Nat := (word c (indexOffset (indexSlot segment flow))).toNat

/-- Station n's static record (R3). -/
def station (c : Cells Word) (n : Nat) : StationStatic :=
  let w0 := word c (stationOffset n)
  let w1 := word c (stationOffset n + 1)
  let w2 := word c (stationOffset n + 2)
  let w3 := word c (stationOffset n + 3)
  { present := flag w0 0
    ganged := flag w0 1
    feeder := bits w0 15 8
    segment := bits w0 23 16
    leader := bits w1 7 0
    spare := bits w1 15 8
    spareSet := flag w1 16
    dwell := bits w2 15 0
    startTimeout := bits w2 31 16
    stopTimeout := bits w3 15 0 }

/-- Plan p's header (R97). -/
def plan (c : Cells Word) (p : Nat) : PlanHeader :=
  let w0 := word c (planOffset p)
  let w1 := word c (planOffset p + 1)
  let w2 := word c (planOffset p + 2)
  let w3 := word c (planOffset p + 3)
  { first := bits w0 15 0
    count := bits w0 31 16
    watchLength := bits w1 7 0
    watch := [bits w2 7 0, bits w2 15 8, bits w2 23 16, bits w2 31 24]
    velocity := bits w1 31 16
    hold := bits w3 15 0
    deadline := bits w3 31 16 }

/-- Pool entry e (R98). -/
def pool (c : Cells Word) (e : Nat) : PoolEntry :=
  let w := word c (poolOffset e)
  { role := bits w 1 0
    tier := bits w 3 2
    speed := bits w 5 4
    rank := bits w 11 8
    subject := bits w 23 16 }

/-- The entries of a plan, in pool order (R97). -/
def planEntries (c : Cells Word) (p : Nat) : List PoolEntry :=
  (List.range (plan c p).count).map (fun i => pool c ((plan c p).first + i))

/-- The anemometers of a plan's watch list: the first length of its four are read (12.6). -/
def watchList (c : Cells Word) (p : Nat) : List Nat := (plan c p).watch.take (plan c p).watchLength

/-- A number that a station's word names is a present station. -/
def presentStation (c : Cells Word) (n : Nat) : Bool := decide (n < 64) && (station c n).present

/-- The station heads a ganged group (R4). -/
def headsGang (c : Cells Word) (n : Nat) : Bool :=
  (station c n).present && decide ((station c n).leader = n) && (station c n).ganged

/-- The stations of the group of a ganged leader (R4). -/
def gangMembers (c : Cells Word) (n : Nat) : List StationNo :=
  allStations.filter (fun m => (station c m).present && decide ((station c m).leader = n))

/-- The feeder whose queue, slots and supply a station uses (R3). -/
def feederOf (c : Cells Word) (n : Nat) : FeederNo := Fin.ofNat 8 (station c n).feeder

/-- The stale time of a source's kind (R80). -/
def staleTime (c : Cells Word) (k : Nat) : Nat :=
  if k < 64 then staleStation c
  else if k < 72 then staleFeeder c
  else if k < 80 then staleAnemometer c
  else staleDetector c

/-- The capacity of the report ring, from the REPORT window's size (R181). -/
def capacity (c : Cells Word) : Nat :=
  match windowOf c .report with
  | none => 31
  | some w => if 4096 ≤ w.size then 255 else if 2048 ≤ w.size then 127 else if 1024 ≤ w.size then 63 else 31

end Setup

/-! ### Addresses of the setup area (R175) and of the windows (12) -/

/-- The setup area is FC000h-FFFFFh. -/
def inSetupArea (a : Nat) : Bool := decide (0xFC000 ≤ a)

/-- The setup block is FC000h-FDFFFh. -/
def inSetupBlock (a : Nat) : Bool := decide (0xFC000 ≤ a) && decide (a < 0xFE000)

/-- The setup result word. -/
def resultAddr : Nat := 0xFFFF8

/-- The close word. -/
def closeAddr : Nat := 0xFFFFC

/-- The command word of a station (R13). -/
def commandAddr (c : Cells Word) (n : StationNo) : Nat := Setup.baseOf c .command + 4 * n.val

/-- The reply word, mailbox word 7 (R168). -/
def replyAddr (c : Cells Word) : Nat := Setup.baseOf c .mailbox + 28

/-- A word of the report window's header (12.4). -/
def reportAddr (c : Cells Word) (i : Nat) : Nat := Setup.baseOf c .report + 4 * i

/-- Word i of ring slot n (R188). -/
def slotAddr (c : Cells Word) (n i : Nat) : Nat := Setup.baseOf c .report + 16 + 16 * n + 4 * i

/-- Word i of the snapshot window (12.5). -/
def snapshotAddr (c : Cells Word) (i : Nat) : Nat := Setup.baseOf c .snapshot + 4 * i

/-- The setup result codes (12.6). -/
inductive SetupCode where
  | ok
  | badSum
  | badFormat
  | badCount
  | badWindow
  | badStation
  | badFeeder
  | badTiming
  | badIndex
  | badPlanHeader
  | badPlanEntry
  | badReportWindow
  deriving DecidableEq, Repr

/-- The code of a setup result (12.6). -/
def SetupCode.code : SetupCode → Nat
  | .ok => 1
  | .badSum => 2
  | .badFormat => 3
  | .badCount => 4
  | .badWindow => 5
  | .badStation => 6
  | .badFeeder => 7
  | .badTiming => 8
  | .badIndex => 9
  | .badPlanHeader => 10
  | .badPlanEntry => 11
  | .badReportWindow => 12

/-- The setup result word (12.6): code, close count, word offset. -/
def resultWord (code : SetupCode) (count offset : Nat) : Word :=
  BitVec.ofNat 32 (placed 0 8 code.code + placed 8 8 count + placed 16 16 offset)

end Sys2Proof.Machine
end

