-- ==== Sys2Proof/Machine/Flags.lean ====
section
/-! DEFINITION. The derived conditions and status values: requested and authority (R9), availability (R12), the
match of feedback (R11), the grant conditions (R63), met (R126), the ring's fullness (R190), the interrupt judgement
(R193), and the arbiter's choice (R170). -/

namespace Sys2Proof.Machine

open Sys2Proof

/-! ### Commands and authority -/

/-- A command with speed step OFF is STOP (00_scope, 5.4). -/
def isStop (c : FanCommand) : Bool := c.speed == .off

/-- Two fan commands are equal when both are STOP, or in speed step and direction (R9). -/
def sameCommand (a b : FanCommand) : Bool := (isStop a && isStop b) || a == b

/-- STOP with the direction a command had (R11). -/
def stopped (c : FanCommand) : FanCommand := { c with speed := .off }

/-- The requested command (R9). R9 gives STOP under a HOLD_OFF target and no direction; the model takes the target's
(log 30, the model's choice), which a snapshot shows (12.5). -/
def Station.requested (d : Station) : FanCommand :=
  match d.target with
  | none => d.request
  | some t =>
    match t.role with
    | .holdOff => { dir := t.dir, speed := .off }
    | .run => { dir := t.dir, speed := t.speed }
    | .spare _ => { dir := t.dir, speed := t.speed }

/-- The authority (R9). -/
def Station.authority (d : Station) : Authority :=
  match d.target with
  | none => .control
  | some _ => .plan

/-- Class and rank of a start queue entry: class from the authority, rank from the plan target (R30, R58). -/
def Station.entryClass (d : Station) : EntryClass :=
  match d.target with
  | none => .control
  | some t => .plan t.rank

/-- A change of request exists when the requested command, the authority, or under PLAN the rank changed (R10). -/
def requestChanged (d d' : Station) : Bool :=
  !sameCommand d.requested d'.requested || d.entryClass != d'.entryClass

/-- A speed step is above another. -/
def speedAbove (a b : Speed) : Bool := decide (speedCode b < speedCode a)

/-- A command runs against another: neither is STOP and the directions differ (R33, R40). -/
def opposite (a b : FanCommand) : Bool := !isStop a && !isStop b && a.dir != b.dir

/-- The fields the command word shows (R17, R18). -/
def Station.shown (d : Station) : FanCommand × Authority × LifeState × Option TripCause :=
  (d.effective, d.authority, d.state, d.tripCause)

/-- The effective command word (R17, 12.1). -/
def Station.commandWord (d : Station) : Word :=
  BitVec.ofNat 32 (fanCode d.effective + placed 3 1 d.authority.code + placed 4 4 d.state.code
    + placed 8 3 (tripCauseCode d.tripCause))

/-- The feedback matches the effective command: RUNNING with its direction and speed step (R11). -/
def matchesEffective (o : Observed) (e : FanCommand) : Bool :=
  !isStop e && o.drive == .running && o.dir == e.dir && o.speed == some e.speed

/-- A start, or a stop, is confirmed exactly while the lifecycle timer runs (R35, R42). -/
def Station.confirmed (d : Station) : Bool := d.timer.isSome

/-- The lock causes are empty. -/
def LockSet.empty (l : LockSet) : Bool := !l.operator && !l.localSwitch

/-- TRIPPED and LOCKED make a station unavailable (R12). -/
def LifeState.out : LifeState → Bool
  | .tripped => true
  | .locked => true
  | .off => false
  | .queued => false
  | .starting => false
  | .running => false
  | .stopping => false
  | .dwell => false

/-! ### Static records of the state's stations and feeders -/

/-- A station's static record. -/
def State.static (s : State) (n : StationNo) : StationStatic := Setup.station s.copy n.val

/-- The station is present (R2). -/
def State.present (s : State) (n : StationNo) : Bool := (s.static n).present

/-- The feeder of a station. -/
def State.feederNo (s : State) (n : StationNo) : FeederNo := Setup.feederOf s.copy n.val

/-- The feeder's number is below the feeder count (R53). -/
def State.activeFeeder (s : State) (f : FeederNo) : Bool := decide (f.val < Setup.feederCount s.copy)

/-- The supply state of a station's feeder is PRESENT. -/
def State.supplied (s : State) (n : StationNo) : Bool := (s.feeder (s.feederNo n)).supply == .present

/-- A station is available (R12). -/
def State.available (s : State) (n : StationNo) : Bool :=
  s.present n && !(s.station n).state.out && s.supplied n

/-- A source is in use (R85). -/
def sourceInUse (c : Cells Word) (k : Nat) : Bool :=
  if k < 64 then (Setup.station c k).present
  else if k < 72 then decide (k - 64 < Setup.feederCount c)
  else if k < 80 then decide (k - 72 < Setup.anemometerCount c)
  else decide (k - 80 < Setup.segmentCount c)

/-! ### Grants (R63) -/

/-- The four conditions of a grant on an active feeder. -/
def State.grantReady (s : State) (f : FeederNo) : Bool :=
  s.activeFeeder f && (s.feeder f).supply == .present
    && decide ((s.feeder f).slotsInUse < (Setup.feeder s.copy f.val).slots)
    && (s.feeder f).spacing == none && !(s.feeder f).queue.isEmpty

/-! ### Airflow (R126) -/

/-- Why an anemometer fails the met condition (R126). -/
inductive AirflowReason where
  | none
  | notFresh
  | invalid
  | belowTarget
  deriving DecidableEq, Repr

/-- The code of an airflow reason (12.4). -/
def AirflowReason.code : AirflowReason → Nat
  | .none => 0
  | .notFresh => 1
  | .invalid => 2
  | .belowTarget => 3

/-- A velocity along FWD in the flow direction (R126). -/
def inFlow (flow : Dir) (velocity : Int) : Int :=
  match flow with
  | .fwd => velocity
  | .rev => -velocity

/-- The first condition an anemometer fails, in the order of R126. -/
def anemometerReason (flow : Dir) (target : Nat) (a : Anemometer) : AirflowReason :=
  if !a.fresh then .notFresh
  else if !a.valid then .invalid
  else if inFlow flow a.velocity < (target : Int) then .belowTarget
  else .none

/-- The anemometer of a watch list number. -/
def AirflowMonitor.entry (m : AirflowMonitor) (n : Nat) : Anemometer := m.anemometers.nth (Fin.ofNat 8 n)

/-- The first failing anemometer in watch-list order with its reason, if any (R126). -/
def firstFailing (c : Cells Word) (m : AirflowMonitor) (i : Incident) : Option (Nat × AirflowReason) :=
  ((Setup.watchList c i.plan).map
    (fun n => (n, anemometerReason i.flow (Setup.plan c i.plan).velocity (m.entry n)))).find? (fun x => x.2 != .none)

/-- Met holds for an incident: no watched anemometer fails (R126). -/
def metFor (c : Cells Word) (m : AirflowMonitor) (i : Incident) : Bool := (firstFailing c m i).isNone

/-- Met over the active incident; it does not hold in NORMAL (R126). -/
def State.met (s : State) : Bool :=
  match s.incident with
  | none => false
  | some i => metFor s.copy s.airflow i

/-- The least of the velocities in the flow direction among the watched anemometers (R138). -/
def lowestVelocity (c : Cells Word) (m : AirflowMonitor) (i : Incident) : Int :=
  match (Setup.watchList c i.plan).map (fun n => inFlow i.flow (m.entry n).velocity) with
  | [] => 0
  | v :: vs => vs.foldl min v

/-! ### The report ring (R188-R193) -/

/-- `a` less `b`, modulo the ring's capacity. -/
def ringDiff (cap a b : Nat) : Nat := (a + cap - b % cap) % cap

/-- The ring is full: the internal head less the ring tail equals capacity − 1 (R190). -/
def State.ringFull (s : State) : Bool :=
  ringDiff (Setup.capacity s.copy) s.writer.head s.writer.ringTail == Setup.capacity s.copy - 1

/-- A tail value lies in the unread range (R191). -/
def State.tailInRange (s : State) (t : Nat) : Bool :=
  decide (t < Setup.capacity s.copy)
    && decide (ringDiff (Setup.capacity s.copy) t s.writer.checkedTail
        ≤ ringDiff (Setup.capacity s.copy) s.writer.head s.writer.checkedTail)

/-- The per-class unread count (R190). -/
def ImageWriter.unreadOf (w : ImageWriter) (cls : RecordClass) : Nat := w.unread.count cls

/-- The interrupt condition: an enabled class has unread records (R193). -/
def interruptLevel (c : Cells Word) (unread : List RecordClass) : Bool := unread.any (Setup.classEnabled c)

/-! ### The arbiter (R169-R171) -/

/-- A requester's priority record. -/
def Arbiter.of (a : Arbiter) : Requester → Priority
  | .image => a.image
  | .scanner => a.scanner
  | .control => a.control

/-- A port waits while the head of its buffer is a passing write, or while a read has finished its wait; a held port
does not wait in ENTERING (R161, R169, R173). -/
def State.portWaiting (s : State) (p : Port) : Bool :=
  s.part != .entering
    && (((s.port p).disposed.isSome && !(s.port p).buffer.isEmpty)
      || ((s.port p).buffer.isEmpty && (s.port p).read.isSome))

/-- The image writer waits while the read-in has a word to read or its work list holds an entry (R169, R187). -/
def State.imageWaiting (s : State) : Bool := !s.reading.isEmpty || !s.writer.workList.isEmpty

/-- Whether a requester waits at the memory port (R169). -/
def State.waiting (s : State) : Requester → Bool
  | .image => s.imageWaiting
  | .scanner => s.portWaiting .scanner
  | .control => s.portWaiting .control

/-- A requester's value: base priority less lost count, not below 0 (R170). -/
def Priority.value (p : Priority) : Nat := p.base - p.lost

/-- The first requester beats the second, both waiting, the first standing earlier in the fixed order: a lower value,
or an equal one with a lost count not smaller (R170). -/
def Priority.beats (a b : Priority) : Bool :=
  decide (a.value < b.value) || (decide (a.value = b.value) && decide (b.lost ≤ a.lost))

/-- The winner among the waiting requesters, in the fixed order image writer, scanner port, control port (R170). -/
def State.winner (s : State) : Option Requester :=
  let best := fun (a : Option Requester) (b : Requester) =>
    if s.waiting b then
      match a with
      | none => some b
      | some r => if (s.arbiter.of r).beats (s.arbiter.of b) then some r else some b
    else a
  best (best (best none .image) .scanner) .control

/-- The lost counts after a grant: the winner's returns to 0, each other waiting requester adds 1 (R170). -/
def State.lostAfter (s : State) (winner r : Requester) : Nat :=
  if r = winner then 0
  else if s.waiting r then (s.arbiter.of r).lost + 1
  else (s.arbiter.of r).lost

/-- The arbiter after a grant (R170). -/
def State.arbiterAfter (s : State) (winner : Requester) : Arbiter :=
  { image := { s.arbiter.image with lost := s.lostAfter winner .image }
    scanner := { s.arbiter.scanner with lost := s.lostAfter winner .scanner }
    control := { s.arbiter.control with lost := s.lostAfter winner .control } }

/-! ### Completions (R162, R169) -/

/-- The effect of the access in flight on memory. -/
def Transfer.applyTo (t : Transfer) (m : Memory) : Memory :=
  match t with
  | .read _ => m
  | .write a d e => m.writeWord a d e

/-- The access in flight has completed at the memory: its write stands in memory and the port is free (R169). -/
def State.finish (s : State) : State :=
  match s.inFlight with
  | none => s
  | some f => { s with mem := f.transfer.applyTo s.mem, inFlight := none }

/-- The data of the write in flight, 0 without one. -/
def State.flightData (s : State) : Word :=
  match s.inFlight with
  | some { transfer := .write _ d _, .. } => d
  | _ => 0

/-- The owner of the access in flight. -/
def State.flightOwner (s : State) : Option Owner := s.inFlight.map Flight.owner

/-! ### Events that arise in GUARD only -/

/-- What a command answers. -/
abbrev Result := Host.Outcome State Fault Refusal

/-- No block but the access path and setup capture takes claims in CAPTURE or ENTERING (R22, R74, R93, R123, R139,
R157, R196): outside GUARD such an event does not arise and changes nothing (log 1). -/
def inGuard (s : State) (f : State → State) : State := if s.part = .guard then f s else s

end Sys2Proof.Machine
end

