-- ==== Sys2Proof/Machine/Stations.lean ====
section
/-! DEFINITION. The station controller and the station lifecycle (chapters 1 and 2): how a station takes its claims,
and the events of its own timer and of its write-back. -/

namespace Sys2Proof.Machine

open Sys2Proof

/-! ### Records of the lifecycle (R51, 12.4) -/

/-- STATION_TRIPPED: trip cause and the state left. -/
def trippedRecord (s : State) (n : StationNo) (cause : TripCause) (left : LifeState) : ReportRecord :=
  mkRecord .stationTripped s.stamp n.val 0 (placed 0 3 (tripCauseCode (some cause)) + placed 4 4 left.code)

/-- STOP_TIMEOUT: the observed drive state, or observed absent. With observed absent the drive state field is 0 (log 31,
the model's choice). -/
def stopTimeoutRecord (s : State) (n : StationNo) (o : Option Observed) : ReportRecord :=
  mkRecord .stopTimeout s.stamp n.val 0
    (match o with
      | none => placed 4 1 1
      | some x => placed 0 2 x.drive.code)

/-- LOCK_CHANGED: the cause (0 OPERATOR, 1 LOCAL), whether it was added, and the lock causes after. -/
def lockRecord (s : State) (n : StationNo) (cause : Nat) (added : Bool) (after : LockSet) : ReportRecord :=
  mkRecord .lockChanged s.stamp n.val 0
    (placed 0 1 cause + placed 1 1 (bitOf added) + placed 4 1 (bitOf after.operator)
      + placed 5 1 (bitOf after.localSwitch))

/-! ### Changing a station's record -/

/-- A station's record changes. A change of a field the command word shows sets write-back pending and places a
station entry if none waits (R18). -/
def State.putStation (s : State) (n : StationNo) (d : Station) : State :=
  { s with
    stations := s.stations.put n (if (s.station n).shown = d.shown then d else { d with writeBackPending := true })
    writer := if (s.station n).shown = d.shown then s.writer else s.writer.placeOnce (.station n) }

/-- The entry a station asks its feeder to insert (R30, R40, R45): kind by whether the station runs, target the
requested command, class and rank from its authority and plan target, entry time the current one. -/
def queueEntryFor (s : State) (n : StationNo) (d : Station) : QueueEntry :=
  { station := n
    kind := if isStop d.effective then .start else .raise
    target := d.requested
    cls := d.entryClass
    entryTime := s.tenths }

/-- What a transition asks of the start sequencer (R24, R56): out of STARTING it releases the slot, out of QUEUED it
removes the entry, into QUEUED it inserts one. -/
def feederAfterMove (s : State) (n : StationNo) (d d' : Station) : Feeder :=
  let fd := s.feeder (s.feederNo n)
  let q := if d.state = .queued then queueRemove n fd.queue else fd.queue
  { fd with
    slotsInUse := if d.state = .starting then fd.slotsInUse - 1 else fd.slotsInUse
    queue := if d'.state = .queued then queueInsert (queueEntryFor s n d') q else q }

/-- The report a transition makes of the station's availability (R50). -/
def availabilityChange (s : State) (n : StationNo) (d d' : Station) : List AvailabilityReport :=
  if s.supplied n && (d.state.out != d'.state.out) then [{ station := n, available := !d'.state.out }] else []

/-- A station's record on entry to a state: no write of its word has been granted since (R19, log 16). -/
def State.enterState (s : State) (n : StationNo) (d : Station) : State := s.putStation n { d with entered := true }

/-- A transition of a station to another state, in the order of R25: the record, the requests to the start sequencer,
the report records, the report of availability. -/
def State.moveStation (s : State) (n : StationNo) (d : Station) (records : List ReportRecord) : State :=
  { s with
    stations := (s.enterState n d).stations
    feeders := s.feeders.put (s.feederNo n) (feederAfterMove s n (s.station n) d)
    writer := (s.enterState n d).writer.handAll records
    reports := s.reports ++ availabilityChange s n (s.station n) d }

/-! ### The states entered -/

/-- STOPPING with effective STOP, the stop flag cleared and the timer not running (R42). -/
def Station.toStopping (d : Station) : Station :=
  { d with state := .stopping, effective := stopped d.effective, timer := none, stopFlag := false }

/-- DWELL with effective STOP and the timer loaded with the dwell time (R44). -/
def Station.toDwell (d : Station) (dwell : Nat) : Station :=
  { d with state := .dwell, effective := stopped d.effective, timer := some dwell }

/-- TRIPPED with effective STOP, the timer stopped and the trip cause set (R46). -/
def Station.toTripped (d : Station) (cause : TripCause) : Station :=
  { d with state := .tripped, effective := stopped d.effective, timer := none, tripCause := some cause }

/-- LOCKED with effective STOP, the timer stopped and any trip cause cleared (R48). -/
def Station.toLocked (d : Station) : Station :=
  { d with state := .locked, effective := stopped d.effective, timer := none, tripCause := none }

/-- QUEUED, at the command the station has (R30, R40, R45). -/
def Station.toQueued (d : Station) : Station := { d with state := .queued, timer := none }

/-- A station trips: TRIPPED with its cause and a STATION_TRIPPED record (R46). -/
def State.tripStation (s : State) (n : StationNo) (cause : TripCause) : State :=
  s.moveStation n ((s.station n).toTripped cause) [trippedRecord s n cause (s.station n).state]

/-- A station goes to DWELL. -/
def State.dwellStation (s : State) (n : StationNo) (records : List ReportRecord) : State :=
  s.moveStation n ((s.station n).toDwell (s.static n).dwell) records

/-! ### Changes of request (R10) -/

/-- The kind of the station's entry in its feeder's queue; START without one (R24). -/
def State.entryKind (s : State) (n : StationNo) : EntryKind :=
  match queueFind n (s.feeder (s.feederNo n)).queue with
  | none => .start
  | some e => e.kind

/-- A retarget of the station's entry to its requested command, class and rank (R61). -/
def State.retarget (s : State) (n : StationNo) : State :=
  let fd := s.feeder (s.feederNo n)
  let q := queueRetarget n (s.station n).requested (s.station n).entryClass fd.queue
  { s with feeders := s.feeders.put (s.feederNo n) { fd with queue := q } }

/-- The RUNNING rule on changes of request (R40). -/
def State.runningChange (s : State) (n : StationNo) : State :=
  let d := s.station n
  if isStop d.requested || opposite d.requested d.effective then s.moveStation n d.toStopping []
  else if speedAbove d.effective.speed d.requested.speed then s.putStation n { d with effective := d.requested }
  else if speedAbove d.requested.speed d.effective.speed then s.moveStation n d.toQueued []
  else s

/-- The QUEUED rules on changes of request, with a START entry (R32) and with a RAISE entry (R33). -/
def State.queuedChange (s : State) (n : StationNo) : State :=
  let d := s.station n
  match s.entryKind n with
  | .start => if isStop d.requested then s.moveStation n { d with state := .off } [] else s.retarget n
  | .raise =>
    if isStop d.requested || opposite d.requested d.effective then s.moveStation n d.toStopping []
    else if speedAbove d.requested.speed d.effective.speed then s.retarget n
    else s.moveStation n { d with state := .running, effective := d.requested } []

/-- The lifecycle takes a change of request by the rules of the station's state (R30, R32, R33, R39, R40, R42, R44,
R47, R49). -/
def State.lifecycleChange (s : State) (n : StationNo) : State :=
  match (s.station n).state with
  | .off => if isStop (s.station n).requested then s else s.moveStation n (s.station n).toQueued []
  | .queued => s.queuedChange n
  | .starting =>
    if isStop (s.station n).requested then s.moveStation n (s.station n).toStopping [] else s
  | .running => s.runningChange n
  | .stopping => s
  | .dwell => s
  | .tripped => s
  | .locked => s

/-- One claim on a station's control request or plan target: the field is set, requested and authority are derived
again, and a change of request is presented to the lifecycle (R8, R10, R15, R110). -/
def State.claim (s : State) (n : StationNo) (d : Station) : State :=
  if requestChanged (s.station n) d then (s.putStation n d).lifecycleChange n else s.putStation n d

/-- The control request is set (R7). -/
def State.setRequest (s : State) (n : StationNo) (c : FanCommand) : State :=
  s.claim n { s.station n with request := c }

/-- The plan target is set, replaced or removed (R8, R110). -/
def State.setTarget (s : State) (n : StationNo) (t : Option PlanTarget) : State :=
  s.claim n { s.station n with target := t }

/-! ### Locks (R20, R28, R48, R49) -/

/-- Leaving LOCKED: to DWELL if observed shows STOPPED, otherwise to STOPPING (R49). -/
def Station.unlocked (d : Station) (dwell : Nat) : Station :=
  match d.observed with
  | some o => if o.drive = .stopped then d.toDwell dwell else d.toStopping
  | none => d.toStopping

/-- The lock causes change: one LOCK_CHANGED record; a set that becomes non-empty takes the station to LOCKED, one
that becomes empty takes it out (R20, R28, R48, R49). -/
def State.changeLocks (s : State) (n : StationNo) (cause : Nat) (added : Bool) (locks : LockSet) : State :=
  let d := s.station n
  let record := lockRecord s n cause added locks
  if d.locks.empty && !locks.empty then s.moveStation n { d.toLocked with locks := locks } [record]
  else if !d.locks.empty && locks.empty then
    s.moveStation n { d.unlocked (s.static n).dwell with locks := locks } [record]
  else (s.putStation n { d with locks := locks }).hand [record]

/-! ### Station feedback words (R26) -/

/-- A STOPPED word of a running fan: to DWELL when the feeder is not PRESENT, otherwise tripped UNEXPECTED_STOP
(R34, R41). -/
def State.unexpectedStop (s : State) (n : StationNo) : State :=
  if s.supplied n then s.tripStation n .unexpectedStop else s.dwellStation n []

/-- A matching RUNNING word ends a confirmed start in RUNNING; a requested command that differs is taken at once by
the RUNNING rule (R36). -/
def State.startEnds (s : State) (n : StationNo) : State :=
  let d := s.station n
  let s' := s.moveStation n { d with state := .running, timer := none } []
  if sameCommand d.requested d.effective then s' else s'.runningChange n

/-- The drive state is judged by the rules of the station's state (R26 step 4): R34, R36, R38, R41, R42. -/
def State.judgeDrive (s : State) (n : StationNo) (o : Observed) : State :=
  let d := s.station n
  match d.state with
  | .queued => if o.drive = .stopped ∧ s.entryKind n = .raise then s.unexpectedStop n else s
  | .starting =>
    if o.drive = .stopped ∧ s.supplied n = false then s.dwellStation n []
    else if d.confirmed && matchesEffective o d.effective then s.startEnds n
    else s
  | .running => if o.drive = .stopped then s.unexpectedStop n else s
  | .stopping => if o.drive = .stopped ∧ d.confirmed then s.dwellStation n [] else s
  | .off => s
  | .dwell => s
  | .tripped => s
  | .locked => s

/-- A station word is taken in the four steps of R26: observed is replaced; the LOCAL cause follows the local flag
(R28); a trip flag trips (R27); otherwise the drive state is judged. A lock change that takes the station into or
out of LOCKED ends the word's effect. -/
def State.stationWord (s : State) (n : StationNo) (o : Observed) : State :=
  let d := s.station n
  let s1 := s.putStation n { d with observed := some o }
  let locks : LockSet := { d.locks with localSwitch := o.localSwitch }
  let s2 := if d.locks.localSwitch = o.localSwitch then s1 else s1.changeLocks n 1 o.localSwitch locks
  if d.locks.empty != locks.empty then s2
  else if o.trip then (if d.state.out then s2 else s2.tripStation n .driveTrip)
  else s2.judgeDrive n o

/-! ### The station's own events -/

/-- The source of a station's word (R76). -/
def stationSource (n : StationNo) : SourceNo := Fin.castLE (by decide) n

/-- START_TIMEOUT (R37): TRIPPED with START_FAIL if the source is FRESH, NO_FEEDBACK otherwise. -/
def State.startTimeout (s : State) (n : StationNo) : State :=
  if (s.station n).state = .starting ∧ (s.station n).timer.due then
    s.tripStation n (if (s.source (stationSource n)).freshness = .fresh then .startFail else .noFeedback)
  else s

def execStartTimeout (n : StationNo) (s : State) : Result := .next (inGuard s (fun s => s.startTimeout n))

/-- STOP_TIMEOUT_EXPIRY (R43): DWELL with the stop flag set and a STOP_TIMEOUT record. -/
def State.stopTimeout (s : State) (n : StationNo) : State :=
  if (s.station n).state = .stopping ∧ (s.station n).timer.due then
    s.moveStation n { (s.station n).toDwell (s.static n).dwell with stopFlag := true }
      [stopTimeoutRecord s n (s.station n).observed]
  else s

def execStopTimeoutExpiry (n : StationNo) (s : State) : Result := .next (inGuard s (fun s => s.stopTimeout n))

/-- DWELL_EXPIRY (R45): OFF when requested is STOP, otherwise QUEUED with a START entry. -/
def State.dwellExpiry (s : State) (n : StationNo) : State :=
  if (s.station n).state = .dwell ∧ (s.station n).timer.due then
    if isStop (s.station n).requested then s.moveStation n { s.station n with state := .off, timer := none } []
    else s.moveStation n (s.station n).toQueued []
  else s

def execDwellExpiry (n : StationNo) (s : State) : Result := .next (inGuard s (fun s => s.dwellExpiry n))

/-- A confirming completion loads the start timeout in STARTING and the stop timeout in STOPPING, if it is the first
since the state was entered; any other starts nothing (R19, R29, R35, R42; log 16). -/
def State.confirm (s : State) (n : StationNo) : State :=
  let d := s.station n
  if d.entered ∨ d.timer.isSome then s
  else
    match d.state with
    | .starting => s.putStation n { d with timer := some (s.static n).startTimeout }
    | .stopping => s.putStation n { d with timer := some (s.static n).stopTimeout }
    | .off => s
    | .queued => s
    | .running => s
    | .dwell => s
    | .tripped => s
    | .locked => s

/-- WRITE_BACK_COMPLETION (R19): the write of a station's word has completed and is delivered to the station. -/
def State.writeBackCompletion (s : State) : State :=
  match s.flightOwner with
  | some (.station n) => inGuard s.finish (fun s => s.confirm n)
  | _ => s

def execWriteBackCompletion (s : State) : Result := .next s.writeBackCompletion

end Sys2Proof.Machine
end

