-- ==== Sys2Proof/Machine/Feeders.lean ====
section
/-! DEFINITION. The start sequencer (chapter 3): grants, the spacing and restore timers, and supply reports. -/

namespace Sys2Proof.Machine

open Sys2Proof

/-- A feeder's record changes. -/
def State.putFeeder (s : State) (f : FeederNo) (fd : Feeder) : State := { s with feeders := s.feeders.put f fd }

/-! ### Grants (R31, R63) -/

/-- A grant loads the spacing timer with the start spacing; a spacing of 0 loads nothing (R57). -/
def spacingAfterGrant (spacing : Nat) (t : Timer) : Timer := if spacing = 0 then t else some spacing

/-- STARTING at the target delivered with the grant, the timer not running (R31). -/
def Station.toStarting (d : Station) (target : FanCommand) : Station :=
  { d with state := .starting, effective := target, timer := none }

/-- The four steps of a grant of an entry, the rest of the queue given (R63). -/
def State.grantEntry (s : State) (f : FeederNo) (e : QueueEntry) (rest : List QueueEntry) : State :=
  let fd := s.feeder f
  let s1 := s.putFeeder f
    { fd with
      queue := rest
      slotsInUse := fd.slotsInUse + 1
      spacing := spacingAfterGrant (Setup.feeder s.copy f.val).spacing fd.spacing }
  s1.enterState e.station ((s.station e.station).toStarting e.target)

/-- GRANT (R63): with its conditions the head entry is granted, otherwise no grant is made. -/
def State.grant (s : State) (f : FeederNo) : State :=
  match (s.feeder f).queue with
  | [] => s
  | e :: rest => if s.grantReady f then s.grantEntry f e rest else s

def execGrant (f : FeederNo) (s : State) : Result := .next (inGuard s (fun s => s.grant f))

/-! ### Claims at several stations (R16, R65, R110; log 11) -/

/-- An event that reaches several stations has each of the waiting ones take its claim once: in the order of the
turns, and then those the turns do not name, in the order they wait. A grant turn is taken between two claims only:
one has been taken and one still waits. -/
def State.takeClaims (claim : State → StationNo → State) : List Turn → List StationNo → Bool → State → State
  | [], waiting, _, s => waiting.foldl claim s
  | .claim n :: turns, waiting, begun, s =>
    if n ∈ waiting then State.takeClaims claim turns (waiting.filter (fun m => m != n)) true (claim s n)
    else State.takeClaims claim turns waiting begun s
  | .grant f :: turns, waiting, begun, s =>
    State.takeClaims claim turns waiting begun (if begun && !waiting.isEmpty then s.grant f else s)

/-- The turns of the next event that reaches several stations; none given, the stations take theirs in order. -/
def State.nextTurns (s : State) : List Turn := s.turns.headD []

/-- The turns of the next such event are used up. -/
def State.restTurns (s : State) : State := { s with turns := s.turns.tail }

/-- SPACING_EXPIRY (R57): the spacing timer stops. -/
def State.spacingExpiry (s : State) (f : FeederNo) : State :=
  if (s.feeder f).spacing.due then s.putFeeder f { s.feeder f with spacing := none } else s

def execSpacingExpiry (f : FeederNo) (s : State) : Result := .next (inGuard s (fun s => s.spacingExpiry f))

/-! ### Supply (R66-R73) -/

/-- FEEDER_LOST: the supply state left, the slots in use, the entries in the queue (R73, 12.4). -/
def feederLostRecord (s : State) (f : FeederNo) : ReportRecord :=
  mkRecord .feederLost s.stamp f.val 0
    (placed 0 2 (s.feeder f).supply.code + placed 8 4 (s.feeder f).slotsInUse + placed 16 8 (s.feeder f).queue.length)

/-- FEEDER_RESTORED: the slots in use, the entries in the queue (R73, 12.4). -/
def feederRestoredRecord (s : State) (f : FeederNo) : ReportRecord :=
  mkRecord .feederRestored s.stamp f.val 0
    (placed 8 4 (s.feeder f).slotsInUse + placed 16 8 (s.feeder f).queue.length)

/-- The reports of a feeder's stations, one for each present station that is not in TRIPPED or LOCKED, in ascending
station number (R72). -/
def supplyReports (s : State) (f : FeederNo) (available : Bool) : List AvailabilityReport :=
  (allStations.filter (fun n => s.present n && s.feederNo n == f && !(s.station n).state.out)).map
    (fun n => { station := n, available := available })

/-- The feeder becomes PRESENT, with a FEEDER_RESTORED record and the reports of its stations (R69). -/
def State.supplyRestored (s : State) (f : FeederNo) : State :=
  { s with
    feeders := s.feeders.put f { s.feeder f with supply := .present, restore := none }
    writer := s.writer.hand (feederRestoredRecord s f)
    reports := s.reports ++ supplyReports s f true }

/-- The feeder becomes LOST, with a FEEDER_LOST record, and the reports of its stations if it was PRESENT (R67). -/
def State.supplyLost (s : State) (f : FeederNo) : State :=
  { s with
    feeders := s.feeders.put f { s.feeder f with supply := .lost, restore := none }
    writer := s.writer.hand (feederLostRecord s f)
    reports := s.reports ++ (if (s.feeder f).supply = .present then supplyReports s f false else []) }

/-- A supply report in each supply state (R66): to LOST (R67), to RESTORING or at once to PRESENT (R68), or no
change. -/
def State.supplyReport (s : State) (f : FeederNo) (present : Bool) : State :=
  match (s.feeder f).supply, present with
  | .present, true => s
  | .present, false => s.supplyLost f
  | .lost, true =>
    if (Setup.feeder s.copy f.val).restoreDelay = 0 then s.supplyRestored f
    else
      s.putFeeder f
        { s.feeder f with supply := .restoring, restore := some (Setup.feeder s.copy f.val).restoreDelay }
  | .lost, false => s
  | .restoring, true => s
  | .restoring, false => s.supplyLost f

/-- RESTORE_EXPIRY (R69): a RESTORING feeder becomes PRESENT. -/
def State.restoreExpiry (s : State) (f : FeederNo) : State :=
  if (s.feeder f).supply = .restoring ∧ (s.feeder f).restore.due then s.supplyRestored f else s

def execRestoreExpiry (f : FeederNo) (s : State) : Result := .next (inGuard s (fun s => s.restoreExpiry f))

end Sys2Proof.Machine
end

