-- ==== Sys2Proof/Machine/Airflow.lean ====
section
/-! DEFINITION. The airflow monitor (chapter 6) but for the deadline, which the incident controller takes whole. -/

namespace Sys2Proof.Machine

open Sys2Proof

/-- The tenths between two moments, up to 65535 (R82, R138, R156). -/
def tenthsSince (now since : Nat) : Nat := min 65535 (now - since)

/-! ### Records (R138, 12.4) -/

/-- The code of the airflow state left: 0 PENDING, 1 SHORT (12.4). -/
def phaseCode : AirflowPhase → Nat
  | .short => 1
  | .pending => 0
  | .established => 0

/-- The failing anemometer and its segment, both FFh without one (12.4). -/
def failingDetail (c : Cells Word) : Option (Nat × AirflowReason) → Nat
  | none => placed 0 8 255 + placed 8 8 255
  | some x => placed 0 8 x.1 + placed 8 8 (Setup.anemometerSegment c x.1)

/-- The reason's code, NONE without a failing anemometer (R126). -/
def failingReason : Option (Nat × AirflowReason) → Nat
  | none => AirflowReason.none.code
  | some x => x.2.code

/-- AIRFLOW_ESTABLISHED. The lowest velocity is its low 16 bits. -/
def establishedRecord (s : State) (i : Incident) : ReportRecord :=
  mkRecord .airflowEstablished s.stamp i.number (placed 0 8 i.plan + placed 8 1 (phaseCode i.airflow))
    (placed 0 16 (tenthsSince s.tenths s.airflow.pendingSince)
      + placed 16 16 (BitVec.ofInt 16 (lowestVelocity s.copy s.airflow i)).toNat)

/-- AIRFLOW_LOST. -/
def airflowLostRecord (s : State) (i : Incident) : ReportRecord :=
  mkRecord .airflowLost s.stamp i.number
    (placed 0 8 i.plan + placed 8 4 (failingReason (firstFailing s.copy s.airflow i)))
    (failingDetail s.copy (firstFailing s.copy s.airflow i))

/-- AIRFLOW_SHORT. -/
def airflowShortRecord (s : State) (i : Incident) : ReportRecord :=
  mkRecord .airflowShort s.stamp i.number
    (placed 0 8 i.plan + placed 8 4 (failingReason (firstFailing s.copy s.airflow i)) + placed 12 1 (bitOf i.boost))
    (failingDetail s.copy (firstFailing s.copy s.airflow i))

/-- The plan's tier-2 entries (R131). -/
def tierTwo (c : Cells Word) (plan : Nat) : List PoolEntry :=
  (Setup.planEntries c plan).filter (fun e => decide (e.tier = 2))

/-- BOOST_APPLIED. -/
def boostRecord (s : State) (i : Incident) : ReportRecord :=
  mkRecord .boostApplied s.stamp i.number i.plan (tierTwo s.copy i.plan).length

/-! ### Met (R127, R129, R134) -/

/-- What a change of met does to the hold timer in each airflow state: in PENDING and SHORT it measures how long met
has held, in ESTABLISHED how long it has failed. -/
def holdAfter (phase : AirflowPhase) (metNow : Bool) (holdTime : Nat) : Timer :=
  match phase with
  | .pending => if metNow then some holdTime else none
  | .short => if metNow then some holdTime else none
  | .established => if metNow then none else some holdTime

/-- A claim changes the anemometer table: met is judged again at its end, and a change of met is taken by the rules of
the airflow state (R127). In IDLE only the table changes. -/
def State.putAnemometer (s : State) (n : AnemometerNo) (a : Anemometer) : State :=
  let m : AirflowMonitor := { s.airflow with anemometers := s.airflow.anemometers.put n a }
  match s.incident with
  | none => { s with airflow := m }
  | some i =>
    if metFor s.copy m i = metFor s.copy s.airflow i then { s with airflow := m }
    else
      { s with airflow :=
          { m with hold := holdAfter i.airflow (metFor s.copy m i) (Setup.plan s.copy i.plan).hold } }

/-- The velocity along FWD of a reading: the orientation sign applied (R88). -/
def alongFwd (negative : Bool) (reading : Int) : Int := if negative then -reading else reading

/-- An anemometer word (R125): velocity and valid flag replaced, fresh set. -/
def State.anemometerWord (s : State) (n : AnemometerNo) (w : Word) : State :=
  s.putAnemometer n
    { fresh := true
      velocity := alongFwd (Setup.anemometerNegative s.copy n.val) (anemometerReading w)
      valid := anemometerValid w }

/-- The notice that an anemometer's source has gone STALE (R125). -/
def State.anemometerStale (s : State) (n : AnemometerNo) : State :=
  s.putAnemometer n { s.airflow.anemometers.nth n with fresh := false }

/-! ### The monitor's transitions -/

/-- An entry to PENDING by a declaration, adoption or re-plan (R128): the deadline is loaded, pending since is now,
and the hold timer is loaded only if met holds against the plan now in force. -/
def enterPending (c : Cells Word) (m : AirflowMonitor) (i : Incident) (now : Nat) : AirflowMonitor :=
  { m with
    deadline := some (Setup.plan c i.plan).deadline
    pendingSince := now
    hold := if metFor c m i then some (Setup.plan c i.plan).hold else none }

/-- HOLD_EXPIRY (R130): in PENDING or SHORT the airflow becomes ESTABLISHED. -/
def State.holdExpiry (s : State) : State :=
  match s.incident with
  | none => s
  | some i =>
    if i.airflow ≠ .established ∧ s.airflow.hold.due then
      { s with
        incident := some { i with airflow := .established }
        airflow := { s.airflow with hold := none, deadline := none }
        writer := s.writer.hand (establishedRecord s i) }
    else s

def execHoldExpiry (s : State) : Result := .next (inGuard s State.holdExpiry)

/-- LOSS_EXPIRY (R135): in ESTABLISHED the airflow is lost and the monitor returns to PENDING. -/
def State.lossExpiry (s : State) : State :=
  match s.incident with
  | none => s
  | some i =>
    if i.airflow = .established ∧ s.airflow.hold.due then
      { s with
        incident := some { i with airflow := .pending }
        airflow :=
          { s.airflow with
            hold := none
            deadline := some (Setup.plan s.copy i.plan).deadline
            pendingSince := s.tenths }
        writer := s.writer.hand (airflowLostRecord s i) }
    else s

def execLossExpiry (s : State) : Result := .next (inGuard s State.lossExpiry)

end Sys2Proof.Machine
end

