-- ==== Sys2Proof/Machine/Incident.lean ====
section
/-! DEFINITION. The incident controller (chapter 5): plan targets, spares, declaration, re-plan, release, boost at the
airflow deadline (chapter 6), automatic declarations, and availability reports. -/

namespace Sys2Proof.Machine

open Sys2Proof

/-- One plan target, or none, for every station. -/
abbrev Targets := Table (Option PlanTarget) 64

/-! ### Plan entries (R98, R99, R109) -/

/-- The role codes of a pool entry (12.6). -/
def roleRun : Nat := 1
def roleHoldOff : Nat := 2

/-- An entry is in force in tier 1, and in tier 2 once boost is applied (R98). -/
def inForce (boost : Bool) (e : PoolEntry) : Bool := decide (e.tier = 1) || (decide (e.tier = 2) && boost)

/-- The stations an entry applies to: every member when its subject heads a ganged group, else the subject (R98). -/
def appliesTo (c : Cells Word) (e : PoolEntry) (n : StationNo) : Bool :=
  if Setup.headsGang c e.subject then decide ((Setup.station c n.val).leader = e.subject) && (Setup.station c n.val).present
  else decide (n.val = e.subject)

/-- An entry governs over another wherever they stand in the pool (R99): HOLD_OFF over RUN; among HOLD_OFF the lower
rank; among RUN the higher speed, then tier 1, then the lower rank. -/
def governsOver (a b : PoolEntry) : Bool :=
  if a.role = roleHoldOff then
    if b.role = roleHoldOff then decide (a.rank < b.rank) else true
  else if b.role = roleHoldOff then false
  else
    decide (b.speed < a.speed) ||
      (decide (a.speed = b.speed) && (decide (a.tier < b.tier) || (decide (a.tier = b.tier) && decide (a.rank < b.rank))))

/-- The governing entry of a list in pool order: the earliest that no other governs over (R99). -/
def governing : List PoolEntry → Option PoolEntry
  | [] => none
  | e :: rest =>
    match governing rest with
    | none => some e
    | some b => if governsOver b e then some b else some e

/-- The entries of a plan in force for a station, in pool order. -/
def entriesFor (c : Cells Word) (plan : Nat) (boost : Bool) (n : StationNo) : List PoolEntry :=
  (Setup.planEntries c plan).filter (fun e => inForce boost e && appliesTo c e n)

/-- The speed of a pool entry's code (12.6). -/
def poolSpeed (code : Nat) : Speed := if code = 2 then .high else .low

/-- The target a governing entry gives (R109). -/
def targetOf (flow : Dir) (e : PoolEntry) : PlanTarget :=
  if e.role = roleHoldOff then { role := .holdOff, dir := flow, speed := .off, rank := e.rank, tier := 1 }
  else { role := .run, dir := flow, speed := poolSpeed e.speed, rank := e.rank, tier := e.tier }

/-- The target the incident's plan gives a station (R109). -/
def planTarget (c : Cells Word) (i : Incident) (n : StationNo) : Option PlanTarget :=
  if (Setup.station c n.val).present then (governing (entriesFor c i.plan i.boost n)).map (targetOf i.flow) else none

/-- The targets formed from the entries in force (R109). -/
def planTargets (c : Cells Word) (i : Incident) : Targets := Table.tabulate (planTarget c i)

/-- The targets the stations hold. -/
def State.targets (s : State) : Targets := Table.tabulate (fun n => (s.station n).target)

/-- A station's target is RUN. -/
def isRun (t : Option PlanTarget) : Bool :=
  match t with
  | some x => x.role == .run
  | none => false

/-- The station a SPARE target stands in for. -/
def standsFor (t : Option PlanTarget) : Option StationNo :=
  match t with
  | some x =>
    match x.role with
    | .spare o => some o
    | .run => none
    | .holdOff => none
  | none => none

/-- A SPARE target copied from an original's target (R112). -/
def spareCopy (o : StationNo) (t : PlanTarget) : PlanTarget := { t with role := .spare o }

/-! ### The spare search (R112) -/

/-- The reasons of SPARE_NONE, with the codes of 12.4. -/
inductive SpareReason where
  | noSpareSet
  | spareUnavailable
  | sparePlanned
  | spareInUse
  deriving DecidableEq, Repr

/-- The code of a SPARE_NONE reason (12.4). -/
def SpareReason.code : SpareReason → Nat
  | .noSpareSet => 1
  | .spareUnavailable => 2
  | .sparePlanned => 3
  | .spareInUse => 4

/-- The spare of an original is engaged when the four conditions of R112 hold; otherwise the first that fails is the
reason. A spare number of 64 or above, which no close lets in (R179), names no available station. -/
def spareFor (s : State) (t : Targets) (o : StationNo) : Except SpareReason StationNo :=
  if !(s.static o).spareSet then .error .noSpareSet
  else if h : (s.static o).spare < 64 then
    let sp : StationNo := ⟨(s.static o).spare, h⟩
    if !s.available sp then .error .spareUnavailable
    else
      match t.nth sp with
      | none => .ok sp
      | some x =>
        match x.role with
        | .spare _ => .error .spareInUse
        | .run => .error .sparePlanned
        | .holdOff => .error .sparePlanned
  else .error .spareUnavailable

/-- SPARE_ENGAGED: the spare station, the original (R122). -/
def spareEngagedRecord (s : State) (sp o : StationNo) : ReportRecord :=
  mkRecord .spareEngaged s.stamp sp.val 0 (placed 0 8 o.val)

/-- SPARE_NONE: the original, the reason, the spare station or FFh when none is named (R122, 12.4). -/
def spareNoneRecord (s : State) (o : StationNo) (r : SpareReason) : ReportRecord :=
  mkRecord .spareNone s.stamp o.val r.code (placed 0 8 (if (s.static o).spareSet then (s.static o).spare else 255))

/-- One spare search for an original that holds a RUN target (R112): the targets with its spare engaged, if one is,
and the search's record. -/
def searchOne (s : State) (t : Targets) (o : StationNo) : Targets × List ReportRecord :=
  match t.nth o with
  | none => (t, [])
  | some x =>
    match spareFor s t o with
    | .ok sp => (t.put sp (some (spareCopy o x)), [spareEngagedRecord s sp o])
    | .error r => (t, [spareNoneRecord s o r])

/-- A search takes its originals one at a time in the order given (R112). -/
def searchSpares (s : State) : Targets → List StationNo → Targets × List ReportRecord
  | t, [] => (t, [])
  | t, o :: rest =>
    let r := searchOne s t o
    let r' := searchSpares s r.1 rest
    (r'.1, r.2 ++ r'.2)

/-- The unavailable stations with a RUN target, in ascending station number (R112). -/
def uncoveredOriginals (s : State) (t : Targets) : List StationNo :=
  allStations.filter (fun n => isRun (t.nth n) && !s.available n)

/-! ### Presenting the targets (R110) -/

/-- The stations whose target differs from the one presented, in ascending station number (R110). -/
def State.targetsDiffer (s : State) (t : Targets) : List StationNo :=
  allStations.filter (fun n => decide ((s.station n).target ≠ t.nth n))

/-- The targets are presented to the stations in the turns given (R110): each one whose target differs takes the new
target or its absence as one claim; the others take none. -/
def State.presentInTurns (s : State) (turns : List Turn) (t : Targets) : State :=
  State.takeClaims (fun s n => s.setTarget n (t.nth n)) turns (s.targetsDiffer t) false s

/-- The targets are presented to the stations in the next turns, between which grants may fall (R110, log 11). -/
def State.presentTargets (s : State) (t : Targets) : State := s.restTurns.presentInTurns s.nextTurns t

/-- The availability view, formed from the stations as they stand (R111). -/
def State.viewNow (s : State) : Table Bool 64 := Table.tabulate s.available

/-! ### Records of the incident (R122, 12.4) -/

/-- INCIDENT_DECLARED. -/
def declaredRecord (s : State) (i : Incident) : ReportRecord :=
  mkRecord .incidentDeclared s.stamp i.number i.plan
    (placed 0 8 i.segment + placed 8 1 (dirCode i.flow) + placed 9 1 i.origin.code)

/-- INCIDENT_REPLANNED. -/
def replannedRecord (s : State) (old i : Incident) : ReportRecord :=
  mkRecord .incidentReplanned s.stamp i.number i.plan
    (placed 0 8 i.segment + placed 8 1 (dirCode i.flow) + placed 16 8 old.plan)

/-- INCIDENT_ADOPTED. -/
def adoptedRecord (s : State) (old i : Incident) : ReportRecord :=
  mkRecord .incidentAdopted s.stamp i.number i.plan
    (placed 0 8 i.segment + placed 8 1 (dirCode i.flow) + placed 16 16 old.number)

/-- INCIDENT_RELEASED: the declared time stamp. -/
def releasedRecord (s : State) (i : Incident) : ReportRecord :=
  mkRecord .incidentReleased s.stamp i.number 0 (stampOf i.declaredTime).toNat

/-! ### Declaration, re-plan, release -/

/-- An incident's plan is applied afresh (R103, R118): the tier-1 targets, the availability view, the spare search,
the incident's record followed by the search's, the targets presented, the airflow monitor in PENDING. -/
def State.applyPlan (s : State) (i : Incident) (record : ReportRecord) : State :=
  let search := searchSpares s (planTargets s.copy i) (uncoveredOriginals s (planTargets s.copy i))
  { s with
    incident := some i
    view := some s.viewNow
    airflow := enterPending s.copy s.airflow i s.tenths
    writer := s.writer.handAll (record :: search.2) }.presentTargets search.1

/-- The incident a declaration creates (R103). -/
def newIncident (s : State) (number : Nat) (origin : Origin) (segment : Nat) (flow : Dir) : Incident :=
  { number := number
    origin := origin
    segment := segment
    flow := flow
    plan := Setup.planFor s.copy segment flow
    declaredTime := s.tenths
    boost := false
    airflow := .pending }

/-- A declaration taken in NORMAL (R103, R107). -/
def State.declareIncident (s : State) (number : Nat) (origin : Origin) (segment : Nat) (flow : Dir) :
    State :=
  s.applyPlan (newIncident s number origin segment flow)
    (declaredRecord s (newIncident s number origin segment flow))

/-- The incident moved to a segment and flow (R118). -/
def movedIncident (s : State) (i : Incident) (segment : Nat) (flow : Dir) : Incident :=
  { i with
    segment := segment
    flow := flow
    plan := Setup.planFor s.copy segment flow
    boost := false
    airflow := .pending }

/-- A re-plan (R105, R118). -/
def State.replanIncident (s : State) (i : Incident) (segment : Nat) (flow : Dir) : State :=
  s.applyPlan (movedIncident s i segment flow) (replannedRecord s i (movedIncident s i segment flow))

/-- The incident an adoption makes: re-planned, with the request's number and origin DECLARED (R104). -/
def adoptedIncident (s : State) (i : Incident) (number segment : Nat) (flow : Dir) : Incident :=
  { movedIncident s i segment flow with number := number, origin := .declared }

/-- An adoption (R104). -/
def State.adoptIncident (s : State) (i : Incident) (number segment : Nat) (flow : Dir) : State :=
  s.applyPlan (adoptedIncident s i number segment flow)
    (adoptedRecord s i (adoptedIncident s i number segment flow))

/-- A release (R121): the record, NORMAL, no view, the monitor IDLE, and every plan target removed. -/
def State.releaseIncident (s : State) (i : Incident) : State :=
  { s with
    incident := none
    view := none
    airflow := { s.airflow with hold := none, deadline := none }
    writer := s.writer.hand (releasedRecord s i) }.presentTargets (Vector.replicate 64 none)

/-! ### Boost (R116, R117, R131, R132) -/

/-- The targets of a boost (R117): an engaged spare keeps its SPARE target, every other station takes what its
governing entry gives. -/
def boostedTarget (s : State) (i : Incident) (n : StationNo) : Option PlanTarget :=
  if (standsFor (s.station n).target).isSome then (s.station n).target else planTarget s.copy i n

/-- A SPARE target follows its original's RUN target (R116). -/
def followOriginal (t : Targets) (n : StationNo) : Option PlanTarget :=
  match standsFor (t.nth n) with
  | none => t.nth n
  | some o =>
    match t.nth o with
    | some x => if x.role = .run then some (spareCopy o x) else t.nth n
    | none => t.nth n

/-- The target set of a boost before its spare search. -/
def boostedTargets (s : State) (i : Incident) : Targets :=
  Table.tabulate (followOriginal (Table.tabulate (boostedTarget s i)))

/-- The stations that gained a RUN target in a boost and are unavailable, in ascending station number (R117). One
that held a RUN target which the boost changes has gained none: it is not searched for (log 33, the model's choice).
Unavailable is judged from the station as it stands (R12), not from the availability view (log 34, the model's choice). -/
def boostOriginals (s : State) (t : Targets) : List StationNo :=
  (uncoveredOriginals s t).filter (fun n => !isRun (s.station n).target)

/-- Boost is applied within the deadline's claim (R117, R132): the BOOST_APPLIED record, the search's records, the
deadline loaded again, the new targets presented. -/
def State.applyBoost (s : State) (i : Incident) : State :=
  let i' : Incident := { i with boost := true }
  let search := searchSpares s (boostedTargets s i') (boostOriginals s (boostedTargets s i'))
  { s with
    incident := some i'
    airflow := { s.airflow with deadline := some (Setup.plan s.copy i.plan).deadline }
    writer := s.writer.handAll (boostRecord s i :: search.2) }.presentTargets search.1

/-- DEADLINE_EXPIRY (R131): in PENDING, boost if it is not yet applied and the plan has tier-2 entries, otherwise
SHORT. -/
def State.deadlineExpiry (s : State) : State :=
  match s.incident with
  | none => s
  | some i =>
    if i.airflow = .pending ∧ s.airflow.deadline.due then
      if i.boost = false ∧ tierTwo s.copy i.plan ≠ [] then s.applyBoost i
      else
        { s with
          incident := some { i with airflow := .short }
          airflow := { s.airflow with deadline := none }
          writer := s.writer.hand (airflowShortRecord s i) }
    else s

def execDeadlineExpiry (s : State) : Result := .next (inGuard s State.deadlineExpiry)

/-! ### Automatic declarations (R107) -/

/-- AUTOMATIC_DECLARATION: the oldest request is taken; in NORMAL it declares an AUTOMATIC incident, in FIRE it is not
taken; the escalator is answered. -/
def State.automaticDeclaration (s : State) : State :=
  match s.autoRequests with
  | [] => s
  | r :: rest =>
    match s.incident with
    | none =>
      { s.declareIncident r.number .automatic r.segment r.flow with
        autoRequests := rest
        answers := s.answers ++ [{ taken := true, request := r }] }
    | some _ => { s with autoRequests := rest, answers := s.answers ++ [{ taken := false, request := r }] }

def execAutomaticDeclaration (s : State) : Result :=
  .next (inGuard s State.automaticDeclaration)

/-! ### Availability reports (R114) -/

/-- A spare is engaged for a station. -/
def State.covered (s : State) (o : StationNo) : Bool :=
  allStations.any (fun n => decide (standsFor (s.station n).target = some o))

/-- One spare search for a station during an incident (R112, R114). It changes at most one station's target, so no
grant falls between claims. -/
def State.seekSpare (s : State) (o : StationNo) : State :=
  (s.hand (searchOne s s.targets o).2).presentInTurns [] (searchOne s s.targets o).1

/-- A report that is news in FIRE: the view takes it, and a RUN-target station that became unavailable with no spare
engaged for it is searched for (R114). -/
def State.takeReport (s : State) (v : Table Bool 64) (r : AvailabilityReport) : State :=
  let s1 := { s with view := some (v.put r.station r.available) }
  if !r.available && isRun (s.station r.station).target && !s.covered r.station then s1.seekSpare r.station else s1

/-- AVAILABILITY_REPORT: the oldest report is taken. In NORMAL it has no effect; in FIRE one that agrees with the view
has none (R114). -/
def State.availabilityReport (s : State) : State :=
  match s.reports with
  | [] => s
  | r :: rest =>
    let s1 := { s with reports := rest }
    match s.incident, s.view with
    | some _, some v => if v.nth r.station = r.available then s1 else s1.takeReport v r
    | some _, none => s1
    | none, _ => s1

def execAvailabilityReport (s : State) : Result := .next (inGuard s State.availabilityReport)

end Sys2Proof.Machine
end

