-- ==== Sys2Proof/Machine/Alarms.lean ====
section
/-! DEFINITION. The alarm escalator (chapter 7): detector words, the two stages, and what it takes from the incident
controller. -/

namespace Sys2Proof.Machine

open Sys2Proof

/-! ### The alarm list (R141) -/

/-- The entry is UNCOVERED. -/
def AlarmEntry.uncovered (e : AlarmEntry) : Bool := e.covering == .uncovered

/-- The number of UNCOVERED entries. -/
def AlarmEscalator.uncoveredCount (a : AlarmEscalator) : Nat := (a.alarmList.filter AlarmEntry.uncovered).length

/-- The oldest uncovered entry: the first from the head (R141). -/
def AlarmEscalator.oldestUncovered (a : AlarmEscalator) : Option AlarmEntry := a.alarmList.find? AlarmEntry.uncovered

/-- A segment's entry in the alarm list. -/
def AlarmEscalator.entryOf (a : AlarmEscalator) (g : SegmentNo) : Option AlarmEntry :=
  a.alarmList.find? (fun e => e.segment == g)

/-- Every UNCOVERED entry takes covering INCIDENT (R148, R149, R151). -/
def coverAll (l : List AlarmEntry) : List AlarmEntry :=
  l.map (fun e => if e.covering = .uncovered then { e with covering := .incident } else e)

/-- The escalator back in IDLE, every uncovered entry covered with INCIDENT (R149, R151). -/
def AlarmEscalator.coverAndIdle (a : AlarmEscalator) : AlarmEscalator :=
  { a with alarmList := coverAll a.alarmList, escalation := .idle, stage := none }

/-- The escalator returns to IDLE when no UNCOVERED entry is left (R150). -/
def AlarmEscalator.settle (a : AlarmEscalator) : AlarmEscalator :=
  if a.uncoveredCount = 0 then { a with escalation := .idle, stage := none } else a

/-! ### Records (R156, 12.4) -/

/-- DETECTOR_ALARM. -/
def detectorAlarmRecord (s : State) (g : SegmentNo) (left : Condition) (covered : Bool) (entries : Nat) : ReportRecord :=
  mkRecord .detectorAlarm s.stamp g.val 0 (placed 0 2 left.code + placed 8 1 (bitOf covered) + placed 16 8 entries)

/-- DETECTOR_CLEARED: for a removed entry its covering and the tenths it spent in the list. With no entry removed the
tenths field is 0 (log 32, the model's choice). -/
def detectorClearedRecord (s : State) (g : SegmentNo) (left new : Condition) (removed : Option AlarmEntry) :
    ReportRecord :=
  mkRecord .detectorCleared s.stamp g.val 0
    (placed 0 2 left.code + placed 2 2 new.code +
      match removed with
      | none => 0
      | some e => placed 4 2 e.covering.code + placed 16 16 (tenthsSince s.tenths e.alarmTime))

/-- DETECTOR_FAULT. -/
def detectorFaultRecord (s : State) (g : SegmentNo) (left : Condition) : ReportRecord :=
  mkRecord .detectorFault s.stamp g.val 0 (placed 0 2 left.code)

/-- ALARM_ESCALATION with stage FIRST: the number of UNCOVERED entries. -/
def escalationFirstRecord (s : State) (g : SegmentNo) : ReportRecord :=
  mkRecord .alarmEscalation s.stamp g.val 1 s.alarms.uncoveredCount

/-- ALARM_ESCALATION with stage NOT_TAKEN: the automatic number that went unused. -/
def escalationNotTakenRecord (s : State) (r : AutoRequest) : ReportRecord :=
  mkRecord .alarmEscalation s.stamp r.segment 2 r.number

/-! ### Detector words (R142-R146) -/

/-- The alarms with a segment's condition replaced. -/
def AlarmEscalator.withCondition (a : AlarmEscalator) (g : SegmentNo) (c : Condition) : AlarmEscalator :=
  { a with conditions := a.conditions.put g c }

/-- A change to ALARM (R143): an entry joins the tail, UNCOVERED in NORMAL, covered with INCIDENT in FIRE; an
uncovered entry in IDLE enters WAIT_CONTROL (R146). -/
def alarmRaised (a : AlarmEscalator) (g : SegmentNo) (now : Nat) (fire : Bool) (t1 : Nat) : AlarmEscalator :=
  let a' : AlarmEscalator :=
    { a with
      alarmList := a.alarmList ++
        [{ segment := g, alarmTime := now, covering := if fire then .incident else .uncovered }] }
  if fire = false ∧ a.escalation = .idle then { a' with escalation := .waitControl, stage := some t1 } else a'

/-- A change from ALARM (R144): the segment's entry is removed; a removed UNCOVERED entry that leaves none returns the
escalator to IDLE (R150). -/
def alarmCleared (a : AlarmEscalator) (g : SegmentNo) : AlarmEscalator :=
  let a' : AlarmEscalator := { a with alarmList := a.alarmList.filter (fun e => e.segment != g) }
  match a.entryOf g with
  | none => a'
  | some e => if e.covering = .uncovered ∧ a.escalation ≠ .idle then a'.settle else a'

/-- A detector word is taken for its segment (R142): the same condition changes nothing; a change is taken by R143,
R144 and R145. -/
def State.detectorWord (s : State) (g : SegmentNo) (new : Condition) : State :=
  let left := s.alarms.conditions.nth g
  let a := s.alarms.withCondition g new
  if left = new then s
  else
    match left, new with
    | _, .alarm =>
      let a' := alarmRaised a g s.tenths s.incident.isSome (Setup.t1 s.copy)
      { s with
        alarms := a'
        writer := s.writer.hand (detectorAlarmRecord s g left s.incident.isSome a'.alarmList.length) }
    | .alarm, .normal =>
      { s with
        alarms := alarmCleared a g
        writer := s.writer.hand (detectorClearedRecord s g left new (s.alarms.entryOf g)) }
    | .alarm, .fault =>
      { s with
        alarms := alarmCleared a g
        writer := s.writer.handAll
          [detectorClearedRecord s g left new (s.alarms.entryOf g), detectorFaultRecord s g left] }
    | _, .fault => { s with alarms := a, writer := s.writer.hand (detectorFaultRecord s g left) }
    | _, .normal => { s with alarms := a, writer := s.writer.hand (detectorClearedRecord s g left new none) }

/-! ### The stages (R147, R148) -/

/-- T1_EXPIRY (R147): ALARM_ESCALATION FIRST, then WAIT_FINAL with T2. Without an uncovered entry, which R150 rules
out, the record has no segment to name and the event does not arise (log 26). -/
def State.t1Expiry (s : State) : State :=
  match s.alarms.oldestUncovered with
  | none => s
  | some e =>
    if s.alarms.escalation = .waitControl ∧ s.alarms.stage.due then
      { s with
        alarms := { s.alarms with escalation := .waitFinal, stage := some (Setup.t2 s.copy) }
        writer := s.writer.hand (escalationFirstRecord s e.segment) }
    else s

def execT1Expiry (s : State) : Result := .next (inGuard s State.t1Expiry)

/-- The next automatic number advances by 1, from 65535 back to 32768 (R148). -/
def numberAfter (n : Nat) : Nat := if n = 65535 then 32768 else n + 1

/-- T2_EXPIRY (R148): every uncovered entry is covered, the escalator is IDLE, and the automatic declaration of the
oldest uncovered segment is requested. -/
def State.t2Expiry (s : State) : State :=
  match s.alarms.oldestUncovered with
  | none => s
  | some e =>
    if s.alarms.escalation = .waitFinal ∧ s.alarms.stage.due then
      { s with
        alarms := { s.alarms.coverAndIdle with nextNumber := numberAfter s.alarms.nextNumber }
        autoRequests := s.autoRequests ++
          [{ segment := e.segment.val
             flow := Setup.defaultFlow s.copy e.segment.val
             number := s.alarms.nextNumber }] }
    else s

def execT2Expiry (s : State) : Result := .next (inGuard s State.t2Expiry)

/-- DECLARATION_ANSWER (R149): taken covers and idles; not taken makes the NOT_TAKEN record and leaves the rest. -/
def State.declarationAnswer (s : State) : State :=
  match s.answers with
  | [] => s
  | x :: rest =>
    if x.taken then { s with answers := rest, alarms := s.alarms.coverAndIdle }
    else { s with answers := rest, writer := s.writer.hand (escalationNotTakenRecord s x.request) }

def execDeclarationAnswer (s : State) : Result := .next (inGuard s State.declarationAnswer)

/-- DECLARATION_NOTICE (R151): every uncovered entry is covered and the escalator is IDLE. -/
def State.declarationNotice (s : State) : State :=
  match s.notices with
  | 0 => s
  | k + 1 => { s with notices := k, alarms := s.alarms.coverAndIdle }

def execDeclarationNotice (s : State) : Result := .next (inGuard s State.declarationNotice)

/-! ### ALARM_ACK (R152, R153) -/

/-- A segment's entry takes covering ACK (R153). -/
def ackEntry (l : List AlarmEntry) (g : SegmentNo) : List AlarmEntry :=
  l.map (fun e => if e.segment = g then { e with covering := .ack } else e)

/-- An ALARM_ACK request for a segment number is taken by the checks of R152, in order. -/
def State.takeAlarmAck (s : State) (segment : Nat) : State × Answer :=
  if Setup.segmentCount s.copy ≤ segment then (s, .refused .badSegment)
  else if h : segment < 32 then
    match s.alarms.entryOf ⟨segment, h⟩ with
    | none => (s, .refused .notInAlarm)
    | some e =>
      match e.covering with
      | .incident => (s, .refused .tooLate)
      | .ack => (s, .done)
      | .uncovered =>
        let a : AlarmEscalator := { s.alarms with alarmList := ackEntry s.alarms.alarmList ⟨segment, h⟩ }
        ({ s with alarms := if a.escalation = .idle then a else a.settle }, .done)
  else (s, .refused .notInAlarm)

end Sys2Proof.Machine
end

