-- ==== Sys2Proof/Machine/Feedback.lean ====
section
/-! DEFINITION. The feedback monitor (chapter 4): writes to sources, the hand-over of their words, and age expiries. -/

namespace Sys2Proof.Machine

open Sys2Proof

/-! ### Records (R91, 12.4) -/

/-- SOURCE_STALE: the freshness left and the stale count after. -/
def sourceStaleRecord (s : State) (k : SourceNo) (left : Freshness) (count : Nat) : ReportRecord :=
  mkRecord .sourceStale s.stamp k.val 0 (placed 0 2 left.code + placed 8 8 count)

/-- SOURCE_RESTORED: the gap and the stale count. -/
def sourceRestoredRecord (s : State) (k : SourceNo) (gap count : Nat) : ReportRecord :=
  mkRecord .sourceRestored s.stamp k.val 0 (placed 0 16 gap + placed 16 8 count)

/-! ### Writes (R81) -/

/-- A source record changes. -/
def State.putSource (s : State) (k : SourceNo) (x : Source) : State := { s with sources := s.sources.put k x }

/-- A source record after a write at a moment (R81 steps 1 to 4). -/
def Source.written (x : Source) (now staleTime : Nat) : Source :=
  { x with
    freshness := .fresh
    age := some staleTime
    lastWrite := now
    lastInterval := tenthsSince now x.lastWrite
    maxInterval := max x.maxInterval (tenthsSince now x.lastWrite) }

/-- The receiving block of each kind of source takes the word (R76, R81 step 5). -/
def State.receive (s : State) (k : SourceNo) (w : Word) : State :=
  if h : k.val < 64 then s.stationWord ⟨k.val, h⟩ (observedOf w)
  else if k.val < 72 then s.supplyReport (Fin.ofNat 8 (k.val - 64)) (supplyReported w)
  else if k.val < 80 then s.anemometerWord (Fin.ofNat 8 (k.val - 72)) w
  else s.detectorWord (Fin.ofNat 32 (k.val - 80)) (conditionOf w)

/-- A write to a source (R81): the record is refreshed, a SOURCE_RESTORED record is made if it was STALE, and the word
of a source in use is handed on. -/
def State.sourceWritten (s : State) (k : SourceNo) (w : Word) : State :=
  let x := s.source k
  let x' := x.written s.tenths (Setup.staleTime s.copy k.val)
  let s1 := s.putSource k x'
  let s2 := if x.freshness = .stale then s1.hand [sourceRestoredRecord s k x'.lastInterval x.staleCount] else s1
  if sourceInUse s.copy k.val then s2.receive k w else s2

/-- SOURCE_WRITE (R78): the write in flight to a source word completes and is taken by the monitor. -/
def State.sourceWrite (s : State) : State :=
  match s.flightOwner with
  | some (.port (.source k)) => inGuard s.finish (fun s' => s'.sourceWritten k s.flightData)
  | _ => s

def execSourceWrite (s : State) : Result := .next s.sourceWrite

/-! ### Age expiries (R83) -/

/-- A source record after its age timer's expiry (R83 steps 1 and 2). -/
def Source.expired (x : Source) : Source :=
  { x with freshness := .stale, age := none, staleCount := min 255 (x.staleCount + 1) }

/-- AGE_EXPIRY (R83): STALE, the stale count raised, a SOURCE_STALE record, and the airflow monitor told of an
anemometer in use. -/
def State.ageExpiry (s : State) (k : SourceNo) : State :=
  let x := s.source k
  if x.freshness ≠ .stale ∧ x.age.due then
    let s1 := (s.putSource k x.expired).hand [sourceStaleRecord s k x.freshness x.expired.staleCount]
    if 72 ≤ k.val ∧ k.val < 80 ∧ sourceInUse s.copy k.val then s1.anemometerStale (Fin.ofNat 8 (k.val - 72)) else s1
  else s

def execAgeExpiry (k : SourceNo) (s : State) : Result := .next (inGuard s (fun s => s.ageExpiry k))

end Sys2Proof.Machine
end

