-- ==== Sys2Proof/Machine/Reports.lean ====
section
/-! DEFINITION. The image writer (chapter 10): record entries and the ring, the tail, overflow, the interrupt output,
snapshots, and what a grant of the memory port to the image writer does. -/

namespace Sys2Proof.Machine

open Sys2Proof

/-! ### Records coming due (R190) -/

/-- The work list without its head entry. -/
def ImageWriter.leave (w : ImageWriter) : ImageWriter := { w with workList := w.workList.tail, progress := 0 }

/-- A record dropped at its turn leaves the record buffer and the work list (R190). -/
def ImageWriter.dropHead (w : ImageWriter) : ImageWriter := { w.leave with buffer := w.buffer.tail }.countDrop

/-- RECORD_DUE (R190): the record entry at the head is checked. With the ring full it is dropped, otherwise its
accesses are presented. -/
def State.recordDue (s : State) : State :=
  match s.writer.workList with
  | .record false :: rest =>
    if s.ringFull then { s with writer := s.writer.dropHead }
    else { s with writer := { s.writer with workList := .record true :: rest } }
  | _ => s

def execRecordDue (s : State) : Result := .next (inGuard s State.recordDue)

/-! ### Overflow (R192) -/

/-- An OVERFLOW record: subject 0, the dropped count carried. -/
def overflowRecord (s : State) : ReportRecord := mkRecord .overflow s.stamp 0 0 s.writer.dropped

/-- OVERFLOW (R192): the OVERFLOW entry at the head is checked at its turn. With the ring full it leaves, otherwise it
takes the dropped count and sets it to 0. -/
def State.overflowTurn (s : State) : State :=
  match s.writer.workList with
  | .overflow none :: rest =>
    if s.ringFull then { s with writer := s.writer.leave }
    else
      let w : ImageWriter := { s.writer with workList := .overflow (some (overflowRecord s)) :: rest, dropped := 0 }
      { s with writer := w.placeOnce .droppedCount }
  | _ => s

def execOverflow (s : State) : Result := .next (inGuard s State.overflowTurn)

/-- An OVERFLOW entry. -/
def WorkEntry.isOverflow : WorkEntry → Bool
  | .overflow _ => true
  | .station _ => false
  | .reply _ => false
  | .record _ => false
  | .droppedCount => false
  | .snapshot => false
  | .setupResult _ => false
  | .entering _ _ _ => false

/-- A record entry that had come due without an access granted is checked again (R192). -/
def WorkEntry.undue : WorkEntry → WorkEntry
  | .record _ => .record false
  | .station n => .station n
  | .reply w => .reply w
  | .droppedCount => .droppedCount
  | .overflow r => .overflow r
  | .snapshot => .snapshot
  | .setupResult w => .setupResult w
  | .entering a w l => .entering a w l

/-- An OVERFLOW entry due is placed behind the entry whose accesses are under way, or at the head if none is (R192).
The work list holds at most one (R187): with one on it, waiting or under way, none is placed (log 18). -/
def placeOverflow (underWay : Bool) (l : List WorkEntry) : List WorkEntry :=
  if l.any WorkEntry.isOverflow then l
  else
    match l with
    | [] => [.overflow none]
    | e :: rest => if underWay then e :: .overflow none :: rest else .overflow none :: e.undue :: rest

/-! ### The tail (R191) and head completions (R190) -/

/-- The slots a tail write frees: from the ring tail up to the new tail. -/
def State.slotsFreed (s : State) (t : Nat) : Nat := ringDiff (Setup.capacity s.copy) t s.writer.ringTail

/-- The completion of a passing tail write (R191, R192, R193). -/
def State.tailMoved (s : State) (t : Nat) : State :=
  let freed := s.slotsFreed t
  let unread := s.writer.unread.drop freed
  { s with
    writer :=
      { s.writer with
        ringTail := t
        unread := unread
        interrupt := interruptLevel s.copy unread
        workList :=
          if 0 < freed ∧ 0 < s.writer.dropped then
            placeOverflow (decide (0 < s.writer.progress)) s.writer.workList
          else s.writer.workList } }

/-- TAIL_WRITE (R191): the tail write in flight completes. -/
def State.tailWrite (s : State) : State :=
  match s.flightOwner with
  | some (.port .tail) => inGuard s.finish (fun s' => s'.tailMoved s.flightData.toNat)
  | _ => s

def execTailWrite (s : State) : Result := .next s.tailWrite

/-- A record becomes unread: its class joins the unread class list and the interrupt is judged (R190, R193). -/
def State.recordRead (s : State) (cls : RecordClass) : State :=
  { s with
    writer :=
      { s.writer with
        unread := s.writer.unread ++ [cls]
        interrupt := interruptLevel s.copy (s.writer.unread ++ [cls]) } }

/-- RECORD_HEAD_COMPLETION (R190): the head write in flight completes. -/
def State.recordHeadCompletion (s : State) : State :=
  match s.flightOwner with
  | some (.recordHead cls) => inGuard s.finish (fun s' => s'.recordRead cls)
  | _ => s

def execRecordHeadCompletion (s : State) : Result := .next s.recordHeadCompletion

/-! ### Snapshots (R194, R195) -/

/-- Bit n of argument 1 selects station n, bit n of argument 2 station 32 + n (R198). -/
def maskSelects (low high : Word) (n : StationNo) : Bool :=
  if n.val < 32 then low.getLsbD n.val else high.getLsbD (n.val - 32)

/-- The record a snapshot shows for a station: the reset values for an absent one (R194). -/
def State.shownStation (s : State) (n : StationNo) : Station := if s.present n then s.station n else Station.reset

/-- A lifecycle timer as a slot shows it: FFFFh when not running (12.5). -/
def timerField : Timer → Nat
  | none => 65535
  | some t => t

/-- The segment a slot shows: 0 for an absent station (R194). -/
def State.shownSegment (s : State) (n : StationNo) : Nat := if s.present n then (s.static n).segment else 0

/-- Word 0 of a slot (12.5). -/
def slotIdentity (s : State) (n : StationNo) : Word :=
  let d := s.shownStation n
  BitVec.ofNat 32
    (placed 0 6 n.val + placed 6 1 (bitOf (s.present n)) + placed 8 5 (s.shownSegment n) + placed 16 4 d.state.code
      + placed 20 1 d.authority.code + placed 24 3 (tripCauseCode d.tripCause) + placed 28 1 (bitOf d.locks.operator)
      + placed 29 1 (bitOf d.locks.localSwitch) + placed 30 1 (bitOf d.stopFlag))

/-- Word 1 of a slot (12.5). -/
def slotCommands (s : State) (n : StationNo) : Word :=
  let d := s.shownStation n
  BitVec.ofNat 32 (fanCode d.requested + placed 8 3 (fanCode d.effective) + placed 16 16 (timerField d.timer))

/-- Word 2 of a slot (12.5). -/
def slotSource (s : State) (n : StationNo) : Word :=
  let x := s.source (stationSource n)
  BitVec.ofNat 32 (placed 0 2 x.freshness.code + placed 8 8 x.staleCount + placed 16 16 x.lastInterval)

/-- Word 3 of a slot (12.5). -/
def slotInterval (s : State) (n : StationNo) : Word :=
  BitVec.ofNat 32 (placed 0 16 (s.source (stationSource n)).maxInterval)

/-- A station's slot, as the claim finds it (R194). -/
def slotOf (s : State) (n : StationNo) : SnapshotSlot :=
  { station := n, words := [slotIdentity s n, slotCommands s n, slotSource s n, slotInterval s n] }

/-- The snapshot of a mask (R194). -/
def snapshotOf (s : State) (low high : Word) : Snapshot :=
  { stamp := s.stamp
    maskLow := low
    maskHigh := high
    ordinal := s.writer.ordinal + 1
    slots := (allStations.filter (maskSelects low high)).map (slotOf s) }

/-- A SNAPSHOT request is taken by the checks of R194, in order. -/
def State.takeSnapshot (s : State) (low high : Word) : State × Answer :=
  if s.writer.snapshot.isSome then (s, .refused .busy)
  else if low = 0 ∧ high = 0 then (s, .refused .badArg)
  else
    ({ s with
        writer := { s.writer with snapshot := some (snapshotOf s low high), ordinal := s.writer.ordinal + 1 } },
      .accepted)

/-- The completion word of an ordinal; one of 2^32 or above has no stated word (log 23). -/
def ordinalWord (ordinal : Nat) : Word :=
  if ordinal < 4294967296 then BitVec.ofNat 32 ordinal else Config.ordinalWordBeyond ordinal

/-- The four writes of a slot: word offsets in the snapshot window and contents (R195). -/
def SnapshotSlot.writes (x : SnapshotSlot) : List (Nat × Word) :=
  (List.range 4).map (fun i => (4 + 4 * x.station.val + i, x.words.getD i 0))

/-- The writes of a snapshot in their order (R195). -/
def Snapshot.writes (x : Snapshot) : List (Nat × Word) :=
  (3, 0) :: (x.slots.map SnapshotSlot.writes).flatten
    ++ [(0, x.stamp), (1, x.maskLow), (2, x.maskHigh), (3, ordinalWord x.ordinal)]

/-- SNAPSHOT_COMPLETE (R195): the ordinal write in flight completes and the snapshot stops being in progress. -/
def State.snapshotComplete (s : State) : State :=
  match s.flightOwner with
  | some .snapshotEnd => inGuard s.finish (fun s' => { s' with writer := { s'.writer with snapshot := none } })
  | _ => s

def execSnapshotComplete (s : State) : Result := .next s.snapshotComplete

/-! ### Grants to the image writer (R187, R190, R195) -/

/-- A full-word write of the image writer is in flight. -/
def State.imageWrite (s : State) (addr : Nat) (data : Word) (owner : Owner) : State :=
  { s with inFlight := some { requester := .image, transfer := .write (wordAddr addr) data allLanes, owner := owner } }

/-- One access of the head entry is granted and others of it remain. -/
def State.imageAdvance (s : State) : State :=
  { s with writer := { s.writer with progress := s.writer.progress + 1 } }

/-- The last access of the head entry is granted. -/
def State.imageLeave (s : State) : State := { s with writer := s.writer.leave }

/-- The slot after a slot, following capacity − 1 with 0 (R188). -/
def nextSlot (cap head : Nat) : Nat := if head + 1 < cap then head + 1 else 0

/-- The next access of a record or OVERFLOW entry (R190): the record's four words into slot head, then the head write,
at whose grant the record leaves the buffer and the internal head advances. -/
def State.grantRecord (s : State) (r : ReportRecord) (bufferAfter : List ReportRecord) : State :=
  if s.writer.progress < 4 then
    s.imageAdvance.imageWrite (slotAddr s.copy s.writer.head s.writer.progress) (r.words.getD s.writer.progress 0) .none
  else
    let head := nextSlot (Setup.capacity s.copy) s.writer.head
    { s with writer := { s.writer.leave with head := head, buffer := bufferAfter } }.imageWrite (reportAddr s.copy 0)
      (BitVec.ofNat 32 head) (.recordHead r.kind.cls)

/-- The grant of a station entry (R19): the word is composed, the entry leaves, write-back pending is cleared. -/
def State.grantStation (s : State) (n : StationNo) : State :=
  { s.imageLeave with
    stations := s.stations.put n { s.station n with writeBackPending := false, entered := false } }.imageWrite
      (commandAddr s.copy n) (s.station n).commandWord (.station n)

/-- The next write of the snapshot entry (R195). -/
def State.grantSnapshot (s : State) (x : Snapshot) : State :=
  let a := x.writes.getD s.writer.progress (0, 0)
  if s.writer.progress + 1 < x.writes.length then s.imageAdvance.imageWrite (snapshotAddr s.copy a.1) a.2 .none
  else s.imageLeave.imageWrite (snapshotAddr s.copy a.1) a.2 .snapshotEnd

/-- The next access of the head of the work list; none while a record or OVERFLOW entry has not been checked
(log 17). -/
def State.grantEntryAccess (s : State) : Option State :=
  match s.writer.workList with
  | [] => none
  | .station n :: _ => some (s.grantStation n)
  | .reply w :: _ => some (s.imageLeave.imageWrite (replyAddr s.copy) w .none)
  | .record true :: _ =>
    match s.writer.buffer with
    | [] => none
    | r :: rest => some (s.grantRecord r rest)
  | .record false :: _ => none
  | .droppedCount :: _ =>
    some (s.imageLeave.imageWrite (reportAddr s.copy 2) (BitVec.ofNat 32 s.writer.dropped) .none)
  | .overflow (some r) :: _ => some (s.grantRecord r s.writer.buffer)
  | .overflow none :: _ => none
  | .snapshot :: _ => s.writer.snapshot.map s.grantSnapshot
  | .setupResult w :: _ => some (s.imageLeave.imageWrite resultAddr w .none)
  | .entering a w last :: _ => some (s.imageLeave.imageWrite a w (if last then .enteringEnd else .none))

/-- The image writer's next access: the reads of the read-in come ahead of the work list (R182). -/
def State.grantImage (s : State) : Option State :=
  match s.reading with
  | n :: rest =>
    let flight : Flight :=
      { requester := .image, transfer := .read (wordAddr (commandAddr s.copy n)), owner := .readIn n }
    some { s with reading := rest, inFlight := some flight }
  | [] => s.grantEntryAccess

end Sys2Proof.Machine
end

