-- ==== Sys2Proof/Machine/Mailbox.lean ====
section
/-! DEFINITION. The mailbox (section 8.3): captured arguments, requests, and their replies. -/

namespace Sys2Proof.Machine

open Sys2Proof

/-! ### Arguments (R166) -/

/-- ARGUMENT_WRITE (R166): the argument write in flight completes and the captured argument takes its value. -/
def State.argumentWrite (s : State) : State :=
  match s.flightOwner with
  | some (.port (.argument n)) => inGuard s.finish (fun s' => { s' with args := s'.args.put n s.flightData })
  | _ => s

def execArgumentWrite (s : State) : Result := .next s.argumentWrite

/-- Captured argument n as the unsigned number R198 compares, counted from 0 for mailbox word 1. -/
def State.arg (s : State) (n : Fin 6) : Nat := (s.args.nth n).toNat

/-! ### Requests and replies (R167, R168) -/

/-- The request count after a request, following 255 with 1 (R168). -/
def countAfter (n : Nat) : Nat := if n = 255 then 1 else n + 1

/-- A request is answered: the request count rises and its reply joins the work list (R168). -/
def State.reply (s : State) (kind : Nat) (a : Answer) : State :=
  { s with
    requestCount := countAfter s.requestCount
    writer := s.writer.append (.reply (replyWord kind a (countAfter s.requestCount))) }

/-- The owner takes a request and hands over its reply at the end of the claim (R168). -/
def answered (kind : Nat) (r : State × Answer) : State := r.1.reply kind r.2

/-- A request in flight completes and is taken, if its kind is one the event is of (R167). -/
def State.request (s : State) (ofEvent : Nat → Bool) (take : Nat → State → State) : State :=
  match s.flightOwner with
  | some (.port .request) =>
    if ofEvent s.flightData.toNat then inGuard s.finish (take s.flightData.toNat) else s
  | _ => s

/-- UNKNOWN_REQUEST_KIND (R167): a kind that names no request is refused BAD_KIND. -/
def isUnknownKind (kind : Nat) : Bool := kind == 0 || decide (5 < kind)

def State.unknownRequestKind (s : State) : State :=
  s.request isUnknownKind (fun kind s' => answered kind (s', .refused .badKind))

def execUnknownRequestKind (s : State) : Result := .next s.unknownRequestKind

/-! ### INCIDENT (R102-R106) -/

/-- The action code names no action (R102 check 1). -/
def unknownAction (action : Nat) : Bool := action == 0 || decide (3 < action)

/-- The flow of a checked flow argument (12.3). -/
def flowOf (code : Nat) : Dir := if code = 1 then .rev else .fwd

/-- Checks 1 and 2 of R102: the action, then the number. -/
def checkNumber (action number : Nat) : Option Reason :=
  if unknownAction action then some .badArg
  else if number = 0 ∨ 32767 < number then some .badArg
  else none

/-- Checks 3 and 4 of R102: the segment, then the flow. -/
def checkPlace (segmentCount segment flow : Nat) : Option Reason :=
  if segmentCount ≤ segment then some .badSegment
  else if 1 < flow then some .badArg
  else none

/-- The escalator is told of a DECLARE answered DONE (R103 step 7, R104). -/
def State.notify (s : State) : State := { s with notices := s.notices + 1 }

/-- A checked DECLARE (R103, R104). -/
def State.takeDeclare (s : State) (number segment : Nat) (flow : Dir) : State × Answer :=
  match s.incident with
  | none => ((s.declareIncident number .declared segment flow).notify, .done)
  | some i =>
    match i.origin with
    | .automatic => ((s.adoptIncident i number segment flow).notify, .done)
    | .declared => (s, .refused .busy)

/-- A checked REPLAN (R105). -/
def State.takeReplan (s : State) (number segment : Nat) (flow : Dir) : State × Answer :=
  match s.incident with
  | none => (s, .refused .noIncident)
  | some i => if i.number = number then (s.replanIncident i segment flow, .done) else (s, .refused .wrongNumber)

/-- A checked RELEASE (R106). -/
def State.takeRelease (s : State) (number : Nat) : State × Answer :=
  match s.incident with
  | none => (s, .refused .noIncident)
  | some i => if i.number = number then (s.releaseIncident i, .done) else (s, .refused .wrongNumber)

/-- A check that failed refuses the request; otherwise it is taken. -/
def checked (s : State) (failed : Option Reason) (take : State × Answer) : State × Answer :=
  match failed with
  | some r => (s, .refused r)
  | none => take

/-- An INCIDENT request is taken by the checks of R102, in order. -/
def State.takeIncident (s : State) (action number segment flow : Nat) : State × Answer :=
  checked s (checkNumber action number)
    (if action = actionRelease then s.takeRelease number
    else
      checked s (checkPlace (Setup.segmentCount s.copy) segment flow)
        (if action = actionDeclare then s.takeDeclare number segment (flowOf flow)
        else s.takeReplan number segment (flowOf flow)))

/-- An INCIDENT request in flight is an event of an action: its action argument names that action, or none (log 7). -/
def State.isIncident (s : State) (action : Nat) (kind : Nat) : Bool :=
  kind == kindIncident && (s.arg 0 == action || unknownAction (s.arg 0))

/-- An INCIDENT request with an action completes and is taken. -/
def State.incidentRequest (s : State) (action : Nat) : State :=
  s.request (s.isIncident action)
    (fun kind s' => answered kind (s'.takeIncident (s'.arg 0) (s'.arg 1) (s'.arg 2) (s'.arg 3)))

/-- DECLARE (R103, R104). -/
def execDeclare (s : State) : Result := .next (s.incidentRequest actionDeclare)

/-- REPLAN (R105). -/
def execReplan (s : State) : Result := .next (s.incidentRequest actionReplan)

/-- RELEASE (R106). -/
def execRelease (s : State) : Result := .next (s.incidentRequest actionRelease)

/-! ### ALARM_ACK, LOCK, TRIP_RESET, SNAPSHOT -/

/-- ALARM_ACK (R152). -/
def State.alarmAck (s : State) : State :=
  s.request (fun kind => kind == kindAlarmAck) (fun kind s' => answered kind (s'.takeAlarmAck (s'.arg 0)))

def execAlarmAck (s : State) : Result := .next s.alarmAck

/-- The present station a request names (R20, R21). -/
def State.namedStation (s : State) (number : Nat) : Option StationNo :=
  if h : number < 64 then if s.present ⟨number, h⟩ then some ⟨number, h⟩ else none else none

/-- The OPERATOR cause is set as a LOCK request asks; a set that does not change makes no record (R20). -/
def State.operatorLock (s : State) (n : StationNo) (on : Bool) : State :=
  if (s.station n).locks.operator = on then s
  else s.changeLocks n 0 on { (s.station n).locks with operator := on }

/-- A LOCK request is taken by the checks of R20, in order. -/
def State.takeLock (s : State) (number on : Nat) : State × Answer :=
  match s.namedStation number with
  | none => (s, .refused .noStation)
  | some n => if 1 < on then (s, .refused .badArg) else (s.operatorLock n (on == 1), .done)

/-- LOCK (R20). -/
def State.lock (s : State) : State :=
  s.request (fun kind => kind == kindLock) (fun kind s' => answered kind (s'.takeLock (s'.arg 0) (s'.arg 1)))

def execLock (s : State) : Result := .next s.lock

/-- The observed trip flag; clear while observed is absent (R6). -/
def Station.tripFlag (d : Station) : Bool :=
  match d.observed with
  | none => false
  | some o => o.trip

/-- Leaving TRIPPED for DWELL: the full dwell time, the trip cause cleared (R21). -/
def Station.tripCleared (d : Station) (dwell : Nat) : Station := { d.toDwell dwell with tripCause := none }

/-- A TRIP_RESET request is taken by the checks of R21, in order. -/
def State.takeTripReset (s : State) (number : Nat) : State × Answer :=
  match s.namedStation number with
  | none => (s, .refused .noStation)
  | some n =>
    if (s.station n).state ≠ .tripped then (s, .refused .notTripped)
    else if (s.station n).tripFlag then (s, .refused .stillTripped)
    else (s.moveStation n ((s.station n).tripCleared (s.static n).dwell) [], .done)

/-- TRIP_RESET (R21). -/
def State.tripReset (s : State) : State :=
  s.request (fun kind => kind == kindTripReset) (fun kind s' => answered kind (s'.takeTripReset (s'.arg 0)))

def execTripReset (s : State) : Result := .next s.tripReset

/-- A SNAPSHOT request and its reply; an accepted one's snapshot entry follows the reply (R194). -/
def State.snapshotAnswered (s : State) (kind : Nat) : State :=
  let r := s.takeSnapshot (s.args.nth 0) (s.args.nth 1)
  if r.2 = .accepted then { answered kind r with writer := (answered kind r).writer.append .snapshot }
  else answered kind r

/-- SNAPSHOT (R194). -/
def State.snapshotRequest (s : State) : State :=
  s.request (fun kind => kind == kindSnapshot) (fun kind s' => s'.snapshotAnswered kind)

def execSnapshot (s : State) : Result := .next s.snapshotRequest

end Sys2Proof.Machine
end

