-- ==== Sys2Proof/Machine/AccessPath.lean ====
section
/-! DEFINITION. The access path (chapter 8): presenting accesses at the ports, the window decoder's dispositions,
command writes, grants of the memory port, and plain completions. -/

namespace Sys2Proof.Machine

open Sys2Proof

/-! ### Presenting an access (R158, R160, R161, R173) -/

/-- The buffer has room for a write (R160). -/
def PortState.room (x : PortState) : Bool := decide (x.buffer.length < Config.bufferDepth)

/-- A port takes an access: a write enters the buffer and is acknowledged, or is held when the buffer is full; a read
is taken (R158, R160, R161). -/
def PortState.take (x : PortState) : PortAccess → PortState
  | .write w => if x.room then { x with buffer := x.buffer ++ [w] } else { x with held := some (.write w) }
  | .read a => { x with read := some a }

/-- A master presents an access. One that still waits for an acknowledgement or for read data presents nothing
(R158, log 1); in ENTERING the access is held (R173). -/
def State.presentAccess (s : State) (p : Port) (a : PortAccess) : State :=
  let x := s.port p
  if x.held.isSome || x.read.isSome then s
  else if s.part = .entering then s.withPort p { x with held := some a }
  else s.withPort p (x.take a)

/-- PORT_WRITE (R158). -/
def execPortWrite (p : Port) (a : PortAccess) (s : State) : Result := .next (s.presentAccess p a)

/-- WRITE_HELD_AT_PORT (R160, R173): the same presentation; whether the port holds it is the state's (log 4). -/
def execWriteHeldAtPort (p : Port) (a : PortAccess) (s : State) : Result := .next (s.presentAccess p a)

/-- A port takes the access it holds, as far as it can (R160, R161). -/
def PortState.release (x : PortState) : PortState :=
  match x.held with
  | none => x
  | some (.write w) => if x.room then { x with held := none, buffer := x.buffer ++ [w] } else x
  | some (.read a) => if x.read.isSome then x else { x with held := none, read := some a }

/-- HELD_WRITE_ACCEPTED (R160): in ENTERING nothing held is taken (R173). -/
def State.acceptHeld (s : State) (p : Port) : State :=
  if s.part = .entering then s else s.withPort p (s.port p).release

def execHeldWriteAccepted (p : Port) (s : State) : Result := .next (s.acceptHeld p)

/-! ### Dispositions (R159, R162-R164, R172, R177) -/

/-- What the window decoder does with a write (R159). An absorbed write carries the station it addresses. -/
inductive Disposition where
  | pass (k : PassKind)
  | refuse (r : Reason)
  | absorb (n : StationNo)
  deriving DecidableEq, Repr

/-- The write enables all four bytes. -/
def writeFull (w : PortWrite) : Bool := w.enables == allLanes

/-- The word's byte address (log 25). -/
def writeAt (w : PortWrite) : Nat := wordAddr w.addr.toNat

/-- A write that passes takes its full-word check first (R164). -/
def fullOr (w : PortWrite) (d : Disposition) : Disposition := if writeFull w then d else .refuse .partialLanes

/-- The disposition in CAPTURE (R172): every write passes; a control port write to the setup block is copied, and a
full one to the close word closes the setup (R176, R177). -/
def captureDisposition (p : Port) (w : PortWrite) : Disposition :=
  match p with
  | .scanner => .pass .plain
  | .control =>
    if inSetupBlock (writeAt w) then .pass .setup
    else if (writeAt w) = closeAddr ∧ writeFull w then .pass .close
    else .pass .plain

/-- A member of a ganged group other than its leader (R14 check 3). -/
def State.gangedMember (s : State) (n : StationNo) : Bool :=
  Setup.headsGang s.copy (s.static n).leader && decide ((s.static n).leader ≠ n.val)

/-- The checks of R14, in their order, for a control port write at an offset of the command window. -/
def State.commandDisposition (s : State) (w : PortWrite) (offset : Nat) : Disposition :=
  fullOr w
    (if h : offset / 4 < 64 then
      let n : StationNo := ⟨offset / 4, h⟩
      if !s.present n then .refuse .absent
      else if s.gangedMember n then .refuse .ganged
      else if (commandSpeed w.data).isNone then .refuse .badValue
      else .absorb n
    else .refuse .absent)

/-- The scanner's writes to the feedback window (R77). -/
def feedbackDisposition (w : PortWrite) (offset : Nat) : Disposition :=
  fullOr w (if h : offset / 4 < 112 then .pass (.source ⟨offset / 4, h⟩) else .pass .plain)

/-- The control port's writes to the mailbox (R164, R166, R167). -/
def mailboxDisposition (w : PortWrite) (offset : Nat) : Disposition :=
  if offset / 4 = 0 then fullOr w (.pass .request)
  else if h : offset / 4 - 1 < 6 then fullOr w (.pass (.argument ⟨offset / 4 - 1, h⟩))
  else if offset / 4 = 7 then .refuse .readOnly
  else .pass .plain

/-- The control port's writes to the report window (R164, R191). -/
def State.reportDisposition (s : State) (w : PortWrite) (offset : Nat) : Disposition :=
  if offset / 4 = 1 then
    fullOr w (if s.tailInRange w.data.toNat then .pass .tail else .refuse .badTail)
  else .refuse .readOnly

/-- A GUARDED window's permission for a port (R163). -/
def guardedDisposition (x : Window) (p : Port) : Disposition :=
  let readOnly := match p with
    | .control => x.readOnlyControl
    | .scanner => x.readOnlyScanner
  if readOnly then .refuse .readOnly else .pass .plain

/-- The control port's column of the table of R164. -/
def State.controlDisposition (s : State) (w : PortWrite) (x : Window) (kind : WindowKind) : Disposition :=
  match kind with
  | .command => s.commandDisposition w ((writeAt w) - x.base)
  | .feedback => .refuse .port
  | .mailbox => mailboxDisposition w ((writeAt w) - x.base)
  | .report => s.reportDisposition w ((writeAt w) - x.base)
  | .snapshot => .refuse .readOnly
  | .guarded => guardedDisposition x .control

/-- The scanner port's column of the table of R164. -/
def scannerDisposition (w : PortWrite) (x : Window) (kind : WindowKind) : Disposition :=
  match kind with
  | .command => .refuse .port
  | .feedback => feedbackDisposition w ((writeAt w) - x.base)
  | .mailbox => .refuse .port
  | .report => .refuse .port
  | .snapshot => .refuse .port
  | .guarded => guardedDisposition x .scanner

/-- The disposition by a window, of a port. A window without a kind is let in by no close (R179, log 26). -/
def State.windowDisposition (s : State) (p : Port) (w : PortWrite) (x : Window) : Disposition :=
  match x.kind, p with
  | none, _ => .pass .plain
  | some k, .control => s.controlDisposition w x k
  | some k, .scanner => scannerDisposition w x k

/-- The disposition in GUARD (R162, R164): the setup area first, then the windows, else PLAIN. -/
def State.guardDisposition (s : State) (p : Port) (w : PortWrite) : Disposition :=
  if inSetupArea (writeAt w) then .refuse .setupClosed
  else
    match Setup.windowAt s.copy (writeAt w) with
    | none => .pass .plain
    | some x => s.windowDisposition p w x

/-- The disposition of a write outside ENTERING. -/
def State.disposition (s : State) (p : Port) (w : PortWrite) : Disposition :=
  if s.part = .guard then s.guardDisposition p w else captureDisposition p w

/-- ACCESS_REFUSED: the byte address, the reason, the port (R165, 12.4). -/
def accessRefusedRecord (s : State) (p : Port) (w : PortWrite) (r : Reason) : ReportRecord :=
  mkRecord .accessRefused s.stamp (writeAt w) r.code (placed 0 1 (portCode p))

/-- A passing tail write becomes the checked tail (R191). -/
def ImageWriter.checkTail (w : ImageWriter) (k : PassKind) (t : Nat) : ImageWriter :=
  if k = .tail then { w with checkedTail := t } else w

/-- The stations whose control request an accepted write sets: one, or every member of the ganged group it heads
(R15, R16). -/
def State.addressed (s : State) (n : StationNo) : List StationNo :=
  if Setup.headsGang s.copy n.val then Setup.gangMembers s.copy n.val else [n]

/-- An accepted write sets the control request of the stations it addresses, one claim at each, in the next turns,
between which grants may fall (R15, R16, log 11). -/
def State.absorbed (s : State) (n : StationNo) (c : FanCommand) : State :=
  State.takeClaims (fun s m => s.setRequest m c) s.nextTurns (s.addressed n) false s.restTurns

/-- What a disposition does to the head write of a port, the writes behind it given (R159, R165). -/
def State.disposed (s : State) (p : Port) (w : PortWrite) (rest : List PortWrite) (d : Disposition) :
    State :=
  match d with
  | .pass k =>
    { s.withPort p { s.port p with disposed := some k } with writer := s.writer.checkTail k w.data.toNat }
  | .refuse r => (s.withPort p { s.port p with buffer := rest }).hand [accessRefusedRecord s p w r]
  | .absorb n => (s.withPort p { s.port p with buffer := rest }).absorbed n (commandReadIn w.data)

/-- WRITE_DISPOSITION (R159, R164): the head write of a port's buffer, if it has none yet, is given its disposition.
In ENTERING neither buffer disposes of its head (R173). A command write is one of its cases (log 5). -/
def State.writeDisposition (s : State) (p : Port) : State :=
  match (s.port p).buffer with
  | [] => s
  | w :: rest =>
    if s.part ≠ .entering ∧ (s.port p).disposed = none then s.disposed p w rest (s.disposition p w) else s

def execWriteDisposition (p : Port) (s : State) : Result := .next (s.writeDisposition p)

/-- A write lies in the command window (R13). -/
def State.isCommandWrite (s : State) (w : PortWrite) : Bool :=
  !inSetupArea (writeAt w) &&
    match Setup.windowAt s.copy (writeAt w) with
    | some x => x.kind == some .command
    | none => false

/-- COMMAND_WRITE (R14-R16): the head write of the control port's buffer, when it lies in the command window. -/
def State.commandWrite (s : State) : State :=
  match s.control.buffer with
  | [] => s
  | w :: _ => if s.isCommandWrite w then inGuard s (fun s => s.writeDisposition .control) else s

def execCommandWrite (s : State) : Result := .next s.commandWrite

/-! ### Grants (R169, R170) -/

/-- The requester of a port. -/
def requesterOf : Port → Requester
  | .control => .control
  | .scanner => .scanner

/-- A port's access is granted: its head write leaves the buffer, or its read begins (R159, R161, R169). -/
def State.grantPort (s : State) (p : Port) : State :=
  let x := s.port p
  match x.buffer, x.disposed, x.read with
  | w :: rest, some k, _ =>
    { s.withPort p { x with buffer := rest, disposed := none } with
      inFlight := some { requester := requesterOf p, transfer := .write (writeAt w) w.data w.enables, owner := .port k } }
  | [], _, some a =>
    { s with
      inFlight := some { requester := requesterOf p, transfer := .read (wordAddr a.toNat), owner := .portRead p } }
  | _ :: _, none, _ => s
  | [], _, none => s

/-- The state after the winner's grant, before the lost counts change. -/
def State.grantTo (s : State) : Requester → Option State
  | .image => s.grantImage
  | .scanner => some (s.grantPort .scanner)
  | .control => some (s.grantPort .control)

/-- MEMORY_GRANT (R170): with the memory port free and a requester waiting, the winner's access is granted and the lost
counts change. -/
def State.memoryGrant (s : State) : State :=
  match s.inFlight, s.winner with
  | none, some r =>
    match s.grantTo r with
    | some t => { t with arbiter := s.arbiterAfter r }
    | none => s
  | none, none => s
  | some _, _ => s

def execMemoryGrant (s : State) : Result := .next s.memoryGrant

/-! ### Completions that no block acts on (R162, R169, R172) -/

/-- The word the access in flight reads. -/
def State.flightWord (s : State) : Word :=
  match s.inFlight with
  | some { transfer := .read a, .. } => s.mem.readWord a
  | _ => 0

/-- A port read's data are returned to its master (R161, R169). -/
def State.returnRead (s : State) (p : Port) (w : Word) : State :=
  s.withPort p { s.port p with read := none, readData := some w }

/-- PLAIN_WRITE (R162): a write with no snooping owner completes in memory; so do the image writer's writes that no
block waits for, and a port's read returns its data (log 6). -/
def State.plainWrite (s : State) : State :=
  match s.flightOwner with
  | some (.port .plain) => s.finish
  | some .none => s.finish
  | some (.portRead p) => s.finish.returnRead p s.flightWord
  | _ => s

def execPlainWrite (s : State) : Result := .next s.plainWrite

end Sys2Proof.Machine
end

