-- ==== Sys2Proof/Machine/Capture.lean ====
section
/-! DEFINITION. Setup capture (chapter 9): the internal copy, the close and its checks, the read-in, GUARD entry; and
the reset and the clock, which act on the whole part. -/

namespace Sys2Proof.Machine

open Sys2Proof

/-! ### Copying (R176) -/

/-- Byte lane i of a word. -/
def lane (w : Word) (i : Nat) : Byte := w.extractLsb' (8 * i) 8

/-- The lane a write leaves: the new byte if it is enabled, the old one otherwise. -/
def mergeLane (old data : Word) (enables : BitVec 4) (i : Nat) : Byte :=
  if enables.getLsbD i then lane data i else lane old i

/-- The enabled bytes replace the same bytes of a word (R176). -/
def mergeWord (old data : Word) (enables : BitVec 4) : Word :=
  mergeLane old data enables 3 ++ mergeLane old data enables 2 ++ mergeLane old data enables 1
    ++ mergeLane old data enables 0

/-- The word offset of an address of the setup block (R175). -/
def setupOffset (a : Nat) : Nat := (a - 0xFC000) / 4

/-- The copy after a write to the setup block. -/
def copyAfter (c : Cells Word) (a : Nat) (data : Word) (enables : BitVec 4) : Cells Word :=
  Cells.write 0 c (setupOffset a) (mergeWord (Setup.word c (setupOffset a)) data enables)

/-- A completion that setup capture takes only in CAPTURE (R176, R177). -/
def inCapture (s : State) (f : State → State) : State := if s.part = .capture then f s else s

/-- SETUP_WRITE (R176): the write in flight to the setup block completes and is copied. -/
def State.setupWrite (s : State) : State :=
  match s.inFlight with
  | some { owner := .port .setup, transfer := .write a d e, .. } =>
    inCapture s.finish (fun s' => { s' with copy := copyAfter s'.copy a d e })
  | _ => s

def execSetupWrite (s : State) : Result := .next s.setupWrite

/-! ### The checks of the close (R178, R179) -/

/-- The checksum: the sum of the 2048 words of the copy, kept to 32 bits (R178). -/
def checksum (c : Cells Word) : Word := (List.range 2048).foldl (fun acc k => acc + Setup.word c k) 0

/-- A number lies in a range. -/
def within (lo hi n : Nat) : Bool := decide (lo ≤ n) && decide (n ≤ hi)

namespace Setup

/-- Check 1: the format is 1. Each check lists the word offsets it examines, in order, with whether each holds. -/
def checkFormat (c : Cells Word) : List (Nat × Bool) := [(0, format c == 1)]

/-- Check 2: the counts and base priorities. -/
def checkCounts (c : Cells Word) : List (Nat × Bool) :=
  [ (1, within 1 32 (segmentCount c) && within 1 8 (feederCount c) && within 0 8 (anemometerCount c)
      && within 5 8 (windowCount c)),
    (2, within 1 64 (planCount c) && within 1 1024 (poolCount c)),
    (4, within 0 7 (basePriorityImage c) && within 0 7 (basePriorityScanner c) && within 0 7 (basePriorityControl c)) ]

/-- The least size that check 3 asks of a window of a kind. -/
def leastSize : WindowKind → Nat
  | .command => 256
  | .feedback => 512
  | .mailbox => 64
  | .report => 64
  | .snapshot => 2048
  | .guarded => 64

/-- A size is a power of two of at least 64 bytes. -/
def goodSize (n : Nat) : Bool := decide (64 ≤ n) && decide (2 ^ Nat.log2 n = n)

/-- Two windows overlap. -/
def overlap (x y : Window) : Bool := decide (x.base < y.base + y.size) && decide (y.base < x.base + x.size)

/-- A window may stand beside a lower-numbered one: no overlap, and no kind but GUARDED used twice. -/
def standsBeside (x y : Window) : Bool := !overlap x y && (x.kind == some .guarded || x.kind != y.kind)

/-- What check 3 asks of a window, its kind aside. A window that reaches FC000h or beyond overlaps the setup area
(12.6). -/
def goodWindow (x : Window) (lower : List Window) : Bool :=
  match x.kind with
  | none => false
  | some k =>
    goodSize x.size && decide (x.base % x.size = 0) && decide (x.base + x.size ≤ 0xFC000)
      && lower.all (standsBeside x) && decide (leastSize k ≤ x.size)

/-- Check 3: the windows, then the presence of the five required kinds. -/
def checkWindows (c : Cells Word) : List (Nat × Bool) :=
  (List.range (windowCount c)).map
      (fun i => (windowOffset i, goodWindow (window c i) ((List.range i).map (window c))))
    ++ [(1, [WindowKind.command, .feedback, .mailbox, .report, .snapshot].all (fun k => (windowOf c k).isSome))]

/-- The present stations, ascending. -/
def presentStations (c : Cells Word) : List StationNo := allStations.filter (fun n => (station c n.val).present)

/-- What check 4 asks of a present station. -/
def goodStation (c : Cells Word) (n : StationNo) : Bool :=
  let x := station c n.val
  decide (x.feeder < feederCount c) && decide (x.segment < segmentCount c) && decide (x.leader ≤ n.val)
    && presentStation c x.leader && decide ((station c x.leader).leader = x.leader)
    && (!x.spareSet || (presentStation c x.spare && decide (x.spare ≠ n.val)))

/-- Check 4: the stations. -/
def checkStations (c : Cells Word) : List (Nat × Bool) :=
  (presentStations c).map (fun n => (stationOffset n.val, goodStation c n))

/-- Check 5: the feeders. -/
def checkFeeders (c : Cells Word) : List (Nat × Bool) :=
  (List.range (feederCount c)).map
    (fun f => (feederOffset f, within 1 4 (feeder c f).slots && within 0 600 (feeder c f).spacing
      && within 0 1200 (feeder c f).restoreDelay))

/-- Check 6: the stale times, T1 and T2, then the times of the stations. -/
def checkTimes (c : Cells Word) : List (Nat × Bool) :=
  [ (5, within 5 100 (staleStation c) && within 5 100 (staleFeeder c)),
    (6, within 5 100 (staleAnemometer c) && within 5 100 (staleDetector c)),
    (7, within 10 600 (t1 c) && within 10 600 (t2 c)) ]
    ++ (presentStations c).map
      (fun n => (stationOffset n.val, within 10 1200 (station c n.val).dwell
        && within 50 600 (station c n.val).startTimeout && within 50 1200 (station c n.val).stopTimeout))

/-- Check 7: both plan index slots of every segment. -/
def checkIndex (c : Cells Word) : List (Nat × Bool) :=
  (List.range (2 * segmentCount c)).map
    (fun k => (indexOffset k, within 1 (planCount c) (word c (indexOffset k)).toNat))

/-- What check 8 asks of a plan header. -/
def goodPlan (c : Cells Word) (p : Nat) : Bool :=
  let x := plan c p
  decide (x.first < poolCount c) && within 1 64 x.count && decide (x.first + x.count ≤ poolCount c)
    && within 1 4 x.watchLength && (watchList c p).all (fun n => decide (n < anemometerCount c))
    && within 50 500 x.velocity && within 50 600 x.hold && within 300 3000 x.deadline

/-- Check 8: the plan headers. -/
def checkPlans (c : Cells Word) : List (Nat × Bool) :=
  (List.range (planCount c)).map (fun i => (planOffset (i + 1), goodPlan c (i + 1)))

/-- What check 9 asks of a pool entry. -/
def goodEntry (c : Cells Word) (e : PoolEntry) : Bool :=
  (e.role == 1 || e.role == 2) && (e.tier == 1 || e.tier == 2) && (e.role == 1 || e.tier == 1)
    && presentStation c e.subject && (e.role == 2 || e.speed == 1 || e.speed == 2)

/-- Check 9: the plan pool. -/
def checkPool (c : Cells Word) : List (Nat × Bool) :=
  (List.range (poolCount c)).map (fun i => (poolOffset i, goodEntry c (pool c i)))

/-- Check 10: every REPORT window is at least 512 bytes. -/
def checkReport (c : Cells Word) : List (Nat × Bool) :=
  (List.range (windowCount c)).map
    (fun i => (windowOffset i, (window c i).kind != some .report || decide (512 ≤ (window c i).size)))

/-- The ten checks in their order, each with the code of its failure (R179). -/
def checks (c : Cells Word) : List (SetupCode × List (Nat × Bool)) :=
  [ (.badFormat, checkFormat c), (.badCount, checkCounts c), (.badWindow, checkWindows c), (.badStation, checkStations c),
    (.badFeeder, checkFeeders c), (.badTiming, checkTimes c), (.badIndex, checkIndex c),
    (.badPlanHeader, checkPlans c), (.badPlanEntry, checkPool c), (.badReportWindow, checkReport c) ]

/-- The word offset of the first entry at fault in a check. -/
def firstAtFault (l : List (Nat × Bool)) : Option Nat := (l.find? (fun x => !x.2)).map (fun x => x.1)

/-- The first check that finds a fault, with its word offset (R179). -/
def firstFault : List (SetupCode × List (Nat × Bool)) → Option (SetupCode × Nat)
  | [] => none
  | (code, l) :: rest =>
    match firstAtFault l with
    | some k => some (code, k)
    | none => firstFault rest

/-- What is wrong with a copy at a close value: the checksum, then the checks (R178, R179). -/
def closeFault (c : Cells Word) (closeValue : Word) : Option (SetupCode × Nat) :=
  if checksum c = closeValue then firstFault (checks c) else some (.badSum, 0)

end Setup

/-! ### The close (R177, R180, R181, R183) -/

/-- The five ENTERING writes (R183). -/
def enteringWrites (c : Cells Word) : List WorkEntry :=
  [ .entering (reportAddr c 0) 0 false,
    .entering (reportAddr c 1) 0 false,
    .entering (reportAddr c 2) 0 false,
    .entering (reportAddr c 3) (BitVec.ofNat 32 (Setup.capacity c)) false,
    .entering (snapshotAddr c 3) 0 true ]

/-- The arbiter with the base priorities of the header, the lost counts kept (R171). -/
def Arbiter.withBases (a : Arbiter) (c : Cells Word) : Arbiter :=
  { image := { a.image with base := Setup.basePriorityImage c }
    scanner := { a.scanner with base := Setup.basePriorityScanner c }
    control := { a.control with base := Setup.basePriorityControl c } }

/-- A close that succeeds (R181): base priorities, the OK result and the ENTERING writes, the read-in, ENTERING. -/
def State.closeSucceeds (s : State) : State :=
  { s with
    arbiter := s.arbiter.withBases s.copy
    writer :=
      { s.writer with
        workList := s.writer.workList ++ .setupResult (resultWord .ok s.closeCount 0) :: enteringWrites s.copy }
    reading := Setup.presentStations s.copy
    part := .entering }

/-- A close that fails (R180). -/
def State.closeFails (s : State) (code : SetupCode) (offset : Nat) : State :=
  { s with writer := s.writer.append (.setupResult (resultWord code s.closeCount offset)) }

/-- A close is taken whole (R177): the close count rises, from 255 back to 1, and the copy is judged. -/
def State.closeTaken (s : State) (closeValue : Word) : State :=
  let s1 := { s with closeCount := countAfter s.closeCount }
  match Setup.closeFault s.copy closeValue with
  | some x => s1.closeFails x.1 x.2
  | none => s1.closeSucceeds

/-- CLOSE (R177): the close word's write in flight completes and closes the setup. -/
def State.close (s : State) : State :=
  match s.flightOwner with
  | some (.port .close) => inCapture s.finish (fun s' => s'.closeTaken s.flightData)
  | _ => s

def execClose (s : State) : Result := .next s.close

/-! ### The read-in (R23, R182) -/

/-- A station's dynamic record from the command word read (R23). -/
def Station.readIn (w : Word) : Station :=
  { Station.reset with
    state := if isStop (commandReadIn w) then .off else .running
    request := commandReadIn w
    effective := commandReadIn w
    writeBackPending := true }

/-- A station is set from the word read, and its entry joins the work list (R23, R182). -/
def State.readInStation (s : State) (n : StationNo) (w : Word) : State :=
  { s with stations := s.stations.put n (Station.readIn w), writer := s.writer.placeOnce (.station n) }

/-- READ_IN (R182): a command word read in flight completes in ENTERING. -/
def State.readIn (s : State) : State :=
  match s.flightOwner with
  | some (.readIn n) => if s.part = .entering then s.finish.readInStation n s.flightWord else s.finish
  | _ => s

def execReadIn (s : State) : Result := .next s.readIn

/-! ### GUARD entry (R184) -/

/-- A source record at GUARD entry (R94). -/
def Source.atEntry (staleTime : Nat) : Source := { Source.reset with age := some staleTime }

/-- A port at GUARD entry: the head write is disposed of anew, and what the master presents is taken (R173, log 21). -/
def PortState.atEntry (x : PortState) : PortState := { x with disposed := none }.release

/-- The values of GUARD entry (R75, R94, R123, R139, R157, R166, R168, R171, R184, R196). -/
def State.enterGuard (s : State) : State :=
  { s with
    part := .guard
    tenths := 0
    control := s.control.atEntry
    scanner := s.scanner.atEntry
    arbiter := { s.arbiter with image := { s.arbiter.image with lost := 0 } }
    args := Vector.replicate 6 0
    requestCount := 0
    feeders := Vector.replicate 8 Feeder.reset
    sources := Table.tabulate (fun k => Source.atEntry (Setup.staleTime s.copy k.val))
    incident := none
    view := none
    reports := []
    autoRequests := []
    answers := []
    notices := 0
    airflow := AirflowMonitor.reset
    alarms := AlarmEscalator.reset
    writer := { ImageWriter.reset with workList := s.writer.workList } }

/-- GUARD_ENTRY (R183, R184): the snapshot completion word's write completes in ENTERING. -/
def State.guardEntry (s : State) : State :=
  match s.flightOwner with
  | some .enteringEnd => if s.part = .entering then s.finish.enterGuard else s.finish
  | _ => s

def execGuardEntry (s : State) : Result := .next s.guardEntry

/-! ### The reset (R22, R74, R93, R123, R139, R157, R174, R186, R196) -/

/-- A port after the reset: the buffer is emptied, a held write enters it, a read not begun is kept (R174). The data
it last returned stay (log 20). -/
def PortState.afterReset (x : PortState) : PortState := { x with buffer := [], disposed := none }.release

/-- A read under way at the reset returns its data (R174). -/
def State.readAtReset (s : State) : State :=
  match s.flightOwner with
  | some (.portRead p) => s.returnRead p s.flightWord
  | _ => s

/-- RESET (R174): the access under way completes in memory and is delivered to no block; memory, the masters' lines and
the commands that wait with their turns stay, and everything else takes its reset value (log 22). -/
def State.resetPart (s : State) : State :=
  { State.reset with
    pending := s.pending
    turns := s.turns
    mem := s.finish.mem
    control := s.readAtReset.control.afterReset
    scanner := s.readAtReset.scanner.afterReset }

def execReset (s : State) : Result := .next s.resetPart

/-! ### The clock (R1) -/

/-- Every running timer falls by 1. -/
def Station.tick (d : Station) : Station := { d with timer := d.timer.tick }

def Feeder.tick (f : Feeder) : Feeder := { f with spacing := f.spacing.tick, restore := f.restore.tick }

def Source.tick (x : Source) : Source := { x with age := x.age.tick }

def AirflowMonitor.tick (m : AirflowMonitor) : AirflowMonitor :=
  { m with hold := m.hold.tick, deadline := m.deadline.tick }

def AlarmEscalator.tick (a : AlarmEscalator) : AlarmEscalator := { a with stage := a.stage.tick }

/-- One tenth of a second in GUARD (R1). -/
def State.tick (s : State) : State :=
  { s with
    tenths := s.tenths + 1
    stations := s.stations.mapAll Station.tick
    feeders := s.feeders.mapAll Feeder.tick
    sources := s.sources.mapAll Source.tick
    airflow := s.airflow.tick
    alarms := s.alarms.tick }

/-- Some timer has run out and its expiry has not been taken. -/
def State.expiryDue (s : State) : Bool :=
  allStations.any (fun n => (s.station n).timer.due)
    || (List.finRange 8).any (fun f => (s.feeder f).spacing.due || (s.feeder f).restore.due)
    || (List.finRange 112).any (fun k => (s.source k).age.due)
    || s.airflow.hold.due || s.airflow.deadline.due || s.alarms.stage.due

/-- TIME_STAMP_TICK (R1): time does not run in CAPTURE and ENTERING, and the next tenth does not begin before every
expiry due in this one has been taken (log 9). -/
def State.timeStampTick (s : State) : State := if s.expiryDue then s else s.tick

def execTimeStampTick (s : State) : Result := .next (inGuard s State.timeStampTick)

end Sys2Proof.Machine
end

