-- ==== Sys2Proof/Machine/Dispatch.lean ====
section
/-! DEFINITION. One arm per command: each calls its meaning. -/

namespace Sys2Proof.Machine

open Sys2Proof

def exec (i : Instr) (s : State) : Host.Outcome State Fault Refusal :=
  match i with
  | .reset => Sys2Proof.Machine.execReset s
  | .timeStampTick => Sys2Proof.Machine.execTimeStampTick s
  | .portWrite p a => Sys2Proof.Machine.execPortWrite p a s
  | .heldWriteAccepted p => Sys2Proof.Machine.execHeldWriteAccepted p s
  | .writeDisposition p => Sys2Proof.Machine.execWriteDisposition p s
  | .commandWrite => Sys2Proof.Machine.execCommandWrite s
  | .memoryGrant => Sys2Proof.Machine.execMemoryGrant s
  | .plainWrite => Sys2Proof.Machine.execPlainWrite s
  | .sourceWrite => Sys2Proof.Machine.execSourceWrite s
  | .argumentWrite => Sys2Proof.Machine.execArgumentWrite s
  | .declare => Sys2Proof.Machine.execDeclare s
  | .replan => Sys2Proof.Machine.execReplan s
  | .release => Sys2Proof.Machine.execRelease s
  | .alarmAck => Sys2Proof.Machine.execAlarmAck s
  | .lock => Sys2Proof.Machine.execLock s
  | .tripReset => Sys2Proof.Machine.execTripReset s
  | .snapshot => Sys2Proof.Machine.execSnapshot s
  | .unknownRequestKind => Sys2Proof.Machine.execUnknownRequestKind s
  | .tailWrite => Sys2Proof.Machine.execTailWrite s
  | .recordDue => Sys2Proof.Machine.execRecordDue s
  | .overflow => Sys2Proof.Machine.execOverflow s
  | .recordHeadCompletion => Sys2Proof.Machine.execRecordHeadCompletion s
  | .writeBackCompletion => Sys2Proof.Machine.execWriteBackCompletion s
  | .snapshotComplete => Sys2Proof.Machine.execSnapshotComplete s
  | .setupWrite => Sys2Proof.Machine.execSetupWrite s
  | .close => Sys2Proof.Machine.execClose s
  | .readIn => Sys2Proof.Machine.execReadIn s
  | .guardEntry => Sys2Proof.Machine.execGuardEntry s
  | .grant f => Sys2Proof.Machine.execGrant f s
  | .startTimeout n => Sys2Proof.Machine.execStartTimeout n s
  | .stopTimeoutExpiry n => Sys2Proof.Machine.execStopTimeoutExpiry n s
  | .dwellExpiry n => Sys2Proof.Machine.execDwellExpiry n s
  | .spacingExpiry f => Sys2Proof.Machine.execSpacingExpiry f s
  | .restoreExpiry f => Sys2Proof.Machine.execRestoreExpiry f s
  | .ageExpiry k => Sys2Proof.Machine.execAgeExpiry k s
  | .holdExpiry => Sys2Proof.Machine.execHoldExpiry s
  | .lossExpiry => Sys2Proof.Machine.execLossExpiry s
  | .deadlineExpiry => Sys2Proof.Machine.execDeadlineExpiry s
  | .t1Expiry => Sys2Proof.Machine.execT1Expiry s
  | .t2Expiry => Sys2Proof.Machine.execT2Expiry s
  | .automaticDeclaration => Sys2Proof.Machine.execAutomaticDeclaration s
  | .declarationAnswer => Sys2Proof.Machine.execDeclarationAnswer s
  | .declarationNotice => Sys2Proof.Machine.execDeclarationNotice s
  | .availabilityReport => Sys2Proof.Machine.execAvailabilityReport s
  | .writeHeldAtPort p a => Sys2Proof.Machine.execWriteHeldAtPort p a s

end Sys2Proof.Machine
end

