-- ==== Sys2Proof/Safety.lean ====
section
/-! DEFINITION. What the statements are said in: frames, completions in memory, and the laws every step keeps. -/

namespace Sys2Proof.Machine

open Sys2Proof

/-! ### Outcomes and frames -/

/-- A command completes on a state in a next state that has a property. -/
def Completes (c : Instr) (s : State) (P : State → Prop) : Prop := ∃ t, exec c s = .next t ∧ P t

/-- The image writer took records and work list entries, and nothing else of it changed. -/
def ImageWriter.took (w w' : ImageWriter) : Prop :=
  w' = { w with workList := w'.workList, buffer := w'.buffer, dropped := w'.dropped }

/-- The image writer took these records in order, each kept or counted as dropped (R189), with their entries and
coalesced ones, and nothing else of it changed. -/
def ImageWriter.tookRecords (w w' : ImageWriter) (rs : List ReportRecord) : Prop :=
  w'.buffer = (w.handAll rs).buffer ∧ w'.dropped = (w.handAll rs).dropped ∧ w.took w'

/-- Only stations, feeders, availability reports, and the image writer's work list, record buffer and dropped count
differ, and the turns used up (log 11). -/
def State.stationsOnly (s t : State) : Prop :=
  t = { s with stations := t.stations, feeders := t.feeders, writer := t.writer, reports := t.reports, turns := t.turns }
    ∧ s.writer.took t.writer

/-- The access in flight completed: the memory port is free, each enabled byte of a write holds its lane of the data,
and every other byte reads as before (R158, R162, R169; which lane belongs to which byte is log 13). -/
def Completed (s t : State) : Prop :=
  t.inFlight = none ∧
    match s.inFlight with
    | none => t.mem = s.mem
    | some f =>
      match f.transfer with
      | .read _ => t.mem = s.mem
      | .write a d e =>
        ∀ b, t.mem.readByte b =
          if a ≤ b ∧ b < a + 4 ∧ e.getLsbD (b - a) = true then d.extractLsb' (8 * (b - a)) 8 else s.mem.readByte b

/-- The mailbox request of a kind is the write in flight. -/
def State.requestInFlight (s : State) (kind : Nat) : Prop :=
  s.part = .guard ∧ s.flightOwner = some (.port .request) ∧ s.flightData.toNat = kind

/-- One reply was handed, at the tail of the work list, with the next request count (R168). -/
def Replied (s t : State) (kind : Nat) (a : Answer) : Prop :=
  t.requestCount = countAfter s.requestCount ∧
    ∃ l, t.writer.workList = l ++ [.reply (replyWord kind a (countAfter s.requestCount))]

/-- A request was refused: the access completed, the reply was placed, and nothing else changed. -/
def RefusedOnly (s t : State) (kind : Nat) (r : Reason) : Prop :=
  Completed s t ∧
    t = { s with
          mem := t.mem
          inFlight := none
          requestCount := countAfter s.requestCount
          writer := s.writer.append (.reply (replyWord kind (.refused r) (countAfter s.requestCount))) }

/-! ### Words taken, plans applied, searches made -/

/-- The image writer as it stands when the word of a source is handed on: a source that was STALE has made its
SOURCE_RESTORED record first (R81 step 4). -/
def State.wordWriter (s : State) (k : SourceNo) : ImageWriter :=
  if (s.source k).freshness = .stale then
    s.writer.hand
      { kind := .sourceRestored, stamp := s.stamp, subject := BitVec.ofNat 32 k.val, detailA := 0
        detailB := BitVec.ofNat 32
          (min 65535 (s.tenths - (s.source k).lastWrite) + 65536 * ((s.source k).staleCount % 256)) }
  else s.writer

/-- A station's word was taken: beside the completion and the source's record, the station's record, its feeder's
record, the image writer and the reports became the ones given, and nothing else changed. -/
def WordTaken (s t : State) (n : StationNo) (d : Station) (f : Feeder) (w : ImageWriter)
    (reports : List AvailabilityReport) : Prop :=
  Completed s t ∧ t = { s with
    mem := t.mem
    inFlight := none
    sources := t.sources
    stations := s.stations.put n d
    feeders := s.feeders.put (s.feederNo n) f
    writer := w
    reports := s.reports ++ reports }

/-- A feeder's record once a station has left its state: the entry of a station that was in QUEUED is out of the queue,
the slot of one that was in STARTING is released (R24). -/
def State.feederLeft (s : State) (n : StationNo) : Feeder :=
  { s.feeder (s.feederNo n) with
    slotsInUse := (s.feeder (s.feederNo n)).slotsInUse - (if (s.station n).state = .starting then 1 else 0)
    queue :=
      if (s.station n).state = .queued then (s.feeder (s.feederNo n)).queue.filter (fun x => x.station != n)
      else (s.feeder (s.feederNo n)).queue }

/-- The record of the spare search for an original, read from the targets that stand after it (R112, 12.4): engaged when
its spare stands in for it and is none of those that did before and were kept, otherwise SPARE_NONE with the first
condition that failed. -/
def State.searchRecord (s t : State) (kept : StationNo → Bool) (o : StationNo) : ReportRecord :=
  let missed := fun (reason spare : Nat) =>
    ({ kind := .spareNone, stamp := s.stamp, subject := BitVec.ofNat 32 o.val, detailA := BitVec.ofNat 16 reason
       detailB := BitVec.ofNat 32 (spare % 256) } : ReportRecord)
  if (s.static o).spareSet = false then missed 1 255
  else if h : (s.static o).spare < 64 then
    if s.available ⟨(s.static o).spare, h⟩ = false then missed 2 (s.static o).spare
    else
      match (t.station ⟨(s.static o).spare, h⟩).target.map PlanTarget.role with
      | some (.spare m) =>
        if m = o ∧ kept ⟨(s.static o).spare, h⟩ = false then
          { kind := .spareEngaged, stamp := s.stamp, subject := BitVec.ofNat 32 (s.static o).spare, detailA := 0
            detailB := BitVec.ofNat 32 o.val }
        else missed 4 (s.static o).spare
      | _ => missed 3 (s.static o).spare
  else missed 2 (s.static o).spare

/-- The stations whose records a search makes, in ascending number: unavailable ones with a RUN target after it, of
those that a condition selects (R112). -/
def State.searched (s t : State) (select : StationNo → Bool) : List StationNo :=
  allStations.filter (fun n => isRun (t.station n).target && !s.available n && select n)

/-- A station with no target of the plan holds none, or stands in for the lowest-numbered original searched for that
names it, and copies its RUN target, being available itself (R112). -/
def State.spareOrNone (s t : State) (select : StationNo → Bool) (n : StationNo) : Prop :=
  (t.station n).target = none
    ∨ ∃ o x, o ∈ s.searched t select ∧ (s.static o).spareSet = true ∧ (s.static o).spare = n.val
        ∧ (∀ m ∈ s.searched t select, (s.static m).spareSet = true → (s.static m).spare = n.val → o.val ≤ m.val)
        ∧ s.available n = true ∧ (t.station o).target = some x
        ∧ (t.station n).target = some { x with role := .spare o }

/-- What AIRFLOW_LOST and AIRFLOW_SHORT show of a plan's watch list (R126, 12.4): number, segment and reason of the first
anemometer in its order that fails a condition, the reason being the first one it fails; FFh, FFh and NONE when every one
holds. -/
def State.showsFailing (s : State) (i : Incident) (reason detail : Nat) : Prop :=
  let reading := fun a => s.airflow.anemometers.nth (Fin.ofNat 8 a)
  let speed := fun a => if i.flow = .fwd then (reading a).velocity else -(reading a).velocity
  let holds := fun a => (reading a).fresh = true ∧ (reading a).valid = true
    ∧ ((Setup.plan s.copy i.plan).velocity : Int) ≤ speed a
  (∀ before a after, Setup.watchList s.copy i.plan = before ++ a :: after → (∀ x ∈ before, holds x) → ¬holds a →
      detail = a % 256 + 256 * Setup.anemometerSegment s.copy a
        ∧ reason = if (reading a).fresh = false then 1 else if (reading a).valid = false then 2 else 3)
    ∧ ((∀ x ∈ Setup.watchList s.copy i.plan, holds x) → detail = 65535 ∧ reason = 0)

/-- Targets were presented to the stations (R110): every control request stays (R7), and a station whose target did not
change took no claim and keeps its record, unless a grant among the turns started it (R65, log 11). -/
def State.presented (s t : State) : Prop :=
  (∀ n, (t.station n).request = (s.station n).request)
    ∧ ∀ n, (t.station n).target = (s.station n).target →
        t.station n = s.station n
          ∨ ((∃ f, .grant f ∈ s.turns.headD [])
              ∧ t.station n = { s.station n with
                  state := .starting, timer := none, entered := true, effective := (t.station n).effective
                  writeBackPending := (t.station n).writeBackPending })

/-- An incident's plan was applied afresh (R103, R109-R112, R118, R128): the incident, the availability view formed
from the stations as they stood, the monitor in PENDING, every target, presented to the stations, the incident's record
and then one for each search. A spare that a search left free was unavailable or had a target of its own; one engaged
stands in for the lowest-numbered original that names it. -/
def State.planApplied (s t : State) (i : Incident) (record : ReportRecord) : Prop :=
  t.incident = some i
    ∧ (∃ v, t.view = some v ∧ ∀ n, (v.nth n = true ↔ s.present n = true ∧ (s.station n).state ≠ .tripped
        ∧ (s.station n).state ≠ .locked ∧ (s.feeder (s.feederNo n)).supply = .present))
    ∧ t.airflow = { s.airflow with
        deadline := some (Setup.plan s.copy i.plan).deadline
        pendingSince := s.tenths
        hold := if metFor s.copy s.airflow i = true then some (Setup.plan s.copy i.plan).hold else none }
    ∧ (∀ n e, s.present n = true → governing (entriesFor s.copy i.plan false n) = some e →
        (t.station n).target = some (targetOf i.flow e))
    ∧ (∀ n, (s.present n = false ∨ governing (entriesFor s.copy i.plan false n) = none) →
        s.spareOrNone t (fun _ => true) n)
    ∧ (∀ o sp, o ∈ s.searched t (fun _ => true) → (s.static o).spareSet = true → (s.static o).spare = sp.val →
        s.available sp = true → (t.station sp).target ≠ none)
    ∧ s.presented t
    ∧ s.writer.tookRecords t.writer
        (record :: (s.searched t (fun _ => true)).map (s.searchRecord t (fun _ => false)))

/-! ### The laws -/

/-- Memory and the internal copy are in their canonical form. -/
def State.canonical (s : State) : Prop := Memory.wf s.mem = true ∧ Cells.wf 0 s.copy = true

/-- The buffers are never deeper than the part holds them (R160, R189), and the dropped count saturates (R189). -/
def State.bounded (s : State) : Prop :=
  s.control.buffer.length ≤ 8 ∧ s.scanner.buffer.length ≤ 8 ∧ s.writer.buffer.length ≤ 16 ∧ s.writer.dropped ≤ 65535

/-- A station has a plan target only while an incident is active, and none is outside GUARD (R100, R123). -/
def State.incidentLaw (s : State) : Prop :=
  (s.part ≠ .guard → s.incident = none) ∧ (s.incident = none → ∀ n, (s.station n).target = none)

/-- The stations of a start queue. -/
def Feeder.queued (f : Feeder) : List StationNo := f.queue.map QueueEntry.station

/-- A station has an entry in a start queue exactly while it is in QUEUED: in its own feeder's queue, and one (R24).
Outside GUARD the queues are empty and no station has left OFF or RUNNING. -/
def State.queueLaw (s : State) : Prop :=
  (∀ f n, n ∈ (s.feeder f).queued ↔ ((s.station n).state = .queued ∧ s.feederNo n = f))
    ∧ (∀ f, (s.feeder f).queued.Nodup)
    ∧ (s.part ≠ .guard → ∀ n, (s.station n).state = .off ∨ (s.station n).state = .running)

/-- The number of a feeder's stations in STARTING (R56). -/
def State.startingOn (s : State) (f : FeederNo) : Nat :=
  (allStations.filter (fun n => (s.station n).state == .starting && s.feederNo n == f)).length

/-- Slots in use is the number of the feeder's stations in STARTING (R56). -/
def State.slotLaw (s : State) : Prop := ∀ f, (s.feeder f).slotsInUse = s.startingOn f

/-- Slots in use never exceed the start slots of a feeder, and outside GUARD none is (R56, R75). -/
def State.slotBound (s : State) : Prop :=
  (s.part ≠ .guard → ∀ f, (s.feeder f).slotsInUse = 0)
    ∧ ∀ f, (s.feeder f).slotsInUse ≤ (Setup.feeder s.copy f.val).slots

/-- A station is in LOCKED exactly while its lock causes are non-empty (R48, R49), and in TRIPPED exactly while its
trip cause is set (R6). -/
def State.outLaw (s : State) : Prop :=
  ∀ n, ((s.station n).state = .locked ↔ (s.station n).locks.empty = false)
    ∧ ((s.station n).state = .tripped ↔ (s.station n).tripCause.isSome = true)

/-- A station's entry waits on the work list exactly while its write-back is pending, and only once (R18). -/
def State.writeBackLaw (s : State) : Prop :=
  ∀ n, s.writer.workList.count (.station n) = if (s.station n).writeBackPending then 1 else 0

/-- The interrupt output is asserted exactly while an enabled class has unread records, and nothing is unread outside
GUARD (R193). -/
def State.interruptLaw (s : State) : Prop :=
  (s.part ≠ .guard → s.writer.unread = []) ∧ s.writer.interrupt = interruptLevel s.copy s.writer.unread

/-- Every start queue stands in the order of R59, and no entry time lies ahead of the current one. -/
def State.orderLaw (s : State) : Prop :=
  ∀ f, (s.feeder f).queue.Pairwise (fun a b => a.before b = true) ∧ ∀ e ∈ (s.feeder f).queue, e.entryTime ≤ s.tenths

/-- What a state of the lifecycle fixes (R24, R29, R30, R39, R40): in OFF the requested command is STOP, in QUEUED and
STARTING it is not, in RUNNING it is the effective one; the effective command runs in STARTING and RUNNING and is STOP
in OFF, STOPPING, DWELL, TRIPPED and LOCKED; the timer runs in DWELL and stands still in OFF, QUEUED, RUNNING, TRIPPED
and LOCKED. -/
def Station.stateLaw (d : Station) : Prop :=
  match d.state with
  | .off => d.requested.speed = .off ∧ d.effective.speed = .off ∧ d.timer = none
  | .queued => d.requested.speed ≠ .off ∧ d.timer = none
  | .starting => d.requested.speed ≠ .off ∧ d.effective.speed ≠ .off
  | .running => d.requested = d.effective ∧ d.effective.speed ≠ .off ∧ d.timer = none
  | .stopping => d.effective.speed = .off
  | .dwell => d.effective.speed = .off ∧ d.timer ≠ none
  | .tripped => d.effective.speed = .off ∧ d.timer = none
  | .locked => d.effective.speed = .off ∧ d.timer = none

/-- A station's fan stands still on the way to DWELL: STOPPING, TRIPPED or LOCKED. -/
def Station.stops (d : Station) : Prop := d.state = .stopping ∨ d.state = .tripped ∨ d.state = .locked

/-- The reversal discipline of one step from a station's record to the next (R52): a running effective command gives way
to one of its direction or to a state on the way to DWELL; no way leads from there but to DWELL; DWELL is entered with
the full dwell time, which falls by single tenths, and is left for OFF or QUEUED at 0 alone. -/
def Station.reversesOnlyThroughDwell (d d' : Station) (dwell : Nat) : Prop :=
  (d.effective.speed ≠ .off →
      (d'.effective.speed ≠ .off ∧ d'.effective.dir = d.effective.dir) ∨ d'.stops ∨ d'.state = .dwell)
    ∧ (d.stops → d'.stops ∨ d'.state = .dwell)
    ∧ (d.state ≠ .dwell → d'.state = .dwell → d'.timer = some dwell)
    ∧ (d.state = .dwell →
        (d'.state = .dwell ∧ (d'.timer = d.timer ∨ ∃ k, d.timer = some (k + 1) ∧ d'.timer = some k))
          ∨ d'.stops ∨ (d.timer = some 0 ∧ (d'.state = .off ∨ d'.state = .queued)))

/-- Every station meets the law of its state, and every start queue entry its station's (R24, R58): target and class are
the station's requested command, authority and rank; a START entry's station is at STOP, a RAISE entry's runs at LOW
and asks for HIGH in its direction. -/
def State.lifecycleLaw (s : State) : Prop :=
  (∀ n, (s.station n).stateLaw)
    ∧ ∀ f, ∀ e ∈ (s.feeder f).queue,
        e.target = (s.station e.station).requested
          ∧ e.cls = (match (s.station e.station).target with
              | none => .control
              | some x => .plan x.rank)
          ∧ (e.kind = .start → (s.station e.station).effective.speed = .off)
          ∧ (e.kind = .raise → (s.station e.station).effective = { dir := e.target.dir, speed := .low }
              ∧ e.target.speed = .high)

/-- The targets of an incident (R100, R109-R113, R116): a station that is no engaged spare holds what the plan in force
gives it; an engaged spare is the one its original names, has no tier-1 target of its own, and copies its original's RUN
target; and no station held off is in QUEUED, STARTING or RUNNING. -/
def State.targetLaw (s : State) : Prop :=
  ∀ i, s.incident = some i →
    (∀ n, standsFor (s.station n).target = none → (s.station n).target = planTarget s.copy i n)
    ∧ (∀ n o x, (s.station n).target = some x → x.role = .spare o →
        (s.static o).spareSet = true ∧ (s.static o).spare = n.val
          ∧ planTarget s.copy { i with boost := false } n = none
          ∧ ∀ y, (s.station o).target = some y → y.role = .run → x = { y with role := .spare o })
    ∧ ∀ n x, (s.station n).target = some x → x.role = .holdOff →
        (s.station n).state ≠ .queued ∧ (s.station n).state ≠ .starting ∧ (s.station n).state ≠ .running

/-- The alarm list and the escalation (R141, R146, R150): a segment is in the list exactly while its condition is ALARM,
and once; the escalator waits exactly while an UNCOVERED entry stands in the list, and its stage timer runs exactly
while it waits. -/
def AlarmEscalator.law (a : AlarmEscalator) : Prop :=
  (∀ g, a.conditions.nth g = .alarm ↔ g ∈ a.alarmList.map AlarmEntry.segment)
    ∧ (a.alarmList.map AlarmEntry.segment).Nodup
    ∧ (a.escalation ≠ .idle ↔ ∃ e ∈ a.alarmList, e.covering = .uncovered)
    ∧ (a.stage ≠ none ↔ a.escalation ≠ .idle)

/-- The entries of the work list that belong to GUARD. -/
def WorkEntry.ofGuard : WorkEntry → Bool
  | .station _ => false
  | .setupResult _ => false
  | .entering _ _ _ => false
  | .reply _ => true
  | .record _ => true
  | .droppedCount => true
  | .overflow _ => true
  | .snapshot => true

/-- A record entry. -/
def WorkEntry.isRecord : WorkEntry → Bool
  | .record _ => true
  | .station _ => false
  | .reply _ => false
  | .droppedCount => false
  | .overflow _ => false
  | .snapshot => false
  | .setupResult _ => false
  | .entering _ _ _ => false

/-- What the work list holds (R187, R194, R195): at most one dropped-count entry, one OVERFLOW entry and one snapshot
entry, the last only while its snapshot is in progress, and one record entry for each record in the buffer. Outside
GUARD it holds none of these, and no record is in the buffer. -/
def State.workListLaw (s : State) : Prop :=
  s.writer.workList.count .droppedCount ≤ 1
    ∧ (s.writer.workList.filter WorkEntry.isOverflow).length ≤ 1
    ∧ s.writer.workList.count .snapshot ≤ 1
    ∧ (.snapshot ∈ s.writer.workList → s.writer.snapshot ≠ none ∧ s.flightOwner ≠ some .snapshotEnd)
    ∧ (s.flightOwner = some .snapshotEnd → s.writer.snapshot ≠ none)
    ∧ (s.writer.workList.filter WorkEntry.isRecord).length = s.writer.buffer.length
    ∧ (s.part ≠ .guard → ∀ e ∈ s.writer.workList, e.ofGuard = false)

/-- A record or OVERFLOW entry that has passed its check (R190, R192). -/
def WorkEntry.passed : WorkEntry → Bool
  | .record due => due
  | .overflow made => made.isSome
  | .station _ => false
  | .reply _ => false
  | .droppedCount => false
  | .snapshot => false
  | .setupResult _ => false
  | .entering _ _ _ => false

/-- The report ring (R188, R190, R191). In GUARD head and tails are slots of the ring. The unread records, with the one
whose head write is in flight, fill the ring from the ring tail up to the internal head, so that there are at most
capacity - 1 of them. Counting from the ring tail, a tail write in flight comes no later than the checked tail, and
that no later than the head; with no tail write on its way the two tails are equal. Only the head of the work list
can have passed its check, and a slot is free while it has. Outside GUARD no entry has passed. -/
def State.ringLaw (s : State) : Prop :=
  let cap := Setup.capacity s.copy
  let from' := fun x => (x + cap - s.writer.ringTail) % cap
  (∀ e ∈ s.writer.workList.tail, e.passed = false)
    ∧ (s.part ≠ .guard → ∀ e ∈ s.writer.workList, e.passed = false)
    ∧ (s.part = .guard →
      s.writer.head < cap ∧ s.writer.ringTail < cap ∧ s.writer.checkedTail < cap
        ∧ s.writer.unread.length + (match s.flightOwner with
            | some (.recordHead _) => 1
            | _ => 0) = from' s.writer.head
        ∧ s.writer.unread.length ≤ cap - 1
        ∧ from' s.writer.checkedTail ≤ from' s.writer.head
        ∧ s.scanner.disposed ≠ some .tail
        ∧ (s.flightOwner = some (.port .tail) →
            s.flightData.toNat < cap ∧ from' s.flightData.toNat ≤ from' s.writer.checkedTail)
        ∧ (s.control.disposed = some .tail → ∃ w rest, s.control.buffer = w :: rest ∧ w.data.toNat = s.writer.checkedTail)
        ∧ (s.control.disposed ≠ some .tail → s.flightOwner = some (.port .tail) →
            s.flightData.toNat = s.writer.checkedTail)
        ∧ (s.control.disposed ≠ some .tail → s.flightOwner ≠ some (.port .tail) →
            s.writer.checkedTail = s.writer.ringTail)
        ∧ ∀ e ∈ s.writer.workList, e.passed = true → from' s.writer.head < cap - 1)

/-- The lost counts and base priorities of the arbiter: base at most 7, no lost count above 9, at most one at 9, and
one at 0 (R170). -/
def Arbiter.fair (a : Arbiter) : Prop :=
  (a.image.base ≤ 7 ∧ a.scanner.base ≤ 7 ∧ a.control.base ≤ 7)
    ∧ (a.image.lost = 0 ∨ a.scanner.lost = 0 ∨ a.control.lost = 0)
    ∧ (a.image.lost ≤ 9 ∧ a.scanner.lost ≤ 9 ∧ a.control.lost ≤ 9)
    ∧ ¬(a.image.lost = 9 ∧ a.scanner.lost = 9) ∧ ¬(a.image.lost = 9 ∧ a.control.lost = 9)
    ∧ ¬(a.scanner.lost = 9 ∧ a.control.lost = 9)

end Sys2Proof.Machine
end

