-- ==== Sys2Proof/Certificates/Slice0/Obligations.lean ====
section
/-! DEFINITION. The statements about the JF64, each as a proposition. -/

open Sys2Proof Sys2Proof.Machine

/-! ### The queue, the reset, the clock -/

/-- A step runs the command at the front of the queue on the state with the queue's rest; with no command it idles
(log 8). -/
def Obligations.StepRunsTheFrontCommand : Prop :=
  (∀ (c : Instr) (rest : List Instr) (s : State), s.pending = c :: rest → step s = exec c { s with pending := rest })
    ∧ ∀ s : State, s.pending = [] → step s = .next s

/-- Every command answers a next state from every state, and leaves the commands that wait alone. The model's inference
(log 29): the spec names no condition that stops the part. An event that does not arise changes nothing (log 1), and the
queue is the model's own (log 8), kept by RESET (log 22). -/
def Obligations.EveryCommandAnswersNext : Prop :=
  ∀ (c : Instr) (s : State), ∃ t, exec c s = .next t ∧ t.pending = s.pending

/-- RESET from any state: every field but memory, the waiting commands with their turns (log 11) and the ports takes the
value of State.reset; the access under way completes in memory; each port's buffer is emptied, a held write enters it,
a held read is taken if none is, a read not begun is kept, a read under way returns its data and waits at its port no
more, and otherwise the data a port last returned stay (log 20). That all of this is one step is log 22. -/
def Obligations.ResetReturnsThePartToCapture : Prop :=
  ∀ s : State, Completes .reset s (fun t =>
    Completed s t
      ∧ t = { State.reset with
          pending := s.pending, turns := s.turns, mem := t.mem, control := t.control, scanner := t.scanner }
      ∧ ∀ p, (t.port p).disposed = none
        ∧ ((s.port p).held = none → (t.port p).buffer = [] ∧ (t.port p).held = none)
        ∧ (∀ w, (s.port p).held = some (.write w) → (t.port p).buffer = [w] ∧ (t.port p).held = none)
        ∧ (∀ a, (s.port p).held = some (.read a) → (s.port p).read = none →
            (t.port p).read = some a ∧ (t.port p).held = none ∧ (t.port p).buffer = [])
        ∧ (∀ a, (s.port p).read = some a → s.flightOwner ≠ some (.portRead p) → (t.port p).read = some a)
        ∧ (s.flightOwner ≠ some (.portRead p) → (t.port p).readData = (s.port p).readData)
        ∧ (∀ q a, s.inFlight = some { requester := q, transfer := .read a, owner := .portRead p } →
            (t.port p).readData = some (s.mem.readWord a)
              ∧ ((∀ b, (s.port p).held ≠ some (.read b)) → (t.port p).read = none)
              ∧ ∀ b, (s.port p).held = some (.read b) → (t.port p).read = some b))

/-- The values after the reset: CAPTURE, an empty copy, close count 0, no read-in, stations OFF at STOP with direction
FWD, feeders PRESENT, sources UNSEEN, no incident, airflow IDLE, no alarm, next automatic number 32768, base
priorities, lost counts, arguments and request count 0, and the image writer empty with the interrupt deasserted. -/
def Obligations.ResetValues : Prop :=
  core.reset.part = .capture ∧ (∀ k, Setup.word core.reset.copy k = 0) ∧ core.reset.closeCount = 0
    ∧ core.reset.reading = []
    ∧ (∀ n, core.reset.station n =
        { state := .off, request := { dir := .fwd, speed := .off }, target := none,
          effective := { dir := .fwd, speed := .off }, writeBackPending := false, timer := none, observed := none,
          locks := { operator := false, localSwitch := false }, tripCause := none, stopFlag := false,
          entered := false })
    ∧ (∀ f, core.reset.feeder f = { supply := .present, slotsInUse := 0, spacing := none, restore := none, queue := [] })
    ∧ (∀ k, core.reset.source k =
        { freshness := .unseen, age := none, lastWrite := 0, lastInterval := 0, maxInterval := 0, staleCount := 0 })
    ∧ core.reset.incident = none ∧ core.reset.view = none
    ∧ core.reset.airflow.hold = none ∧ core.reset.airflow.deadline = none ∧ core.reset.airflow.pendingSince = 0
    ∧ (∀ n, core.reset.airflow.anemometers.nth n = { fresh := false, velocity := 0, valid := false })
    ∧ (∀ g, core.reset.alarms.conditions.nth g = .normal) ∧ core.reset.alarms.alarmList = []
    ∧ core.reset.alarms.escalation = .idle ∧ core.reset.alarms.stage = none ∧ core.reset.alarms.nextNumber = 32768
    ∧ (∀ r, core.reset.arbiter.of r = { base := 0, lost := 0 })
    ∧ (∀ n, core.reset.args.nth n = 0) ∧ core.reset.requestCount = 0
    ∧ core.reset.writer =
        { workList := [], progress := 0, buffer := [], head := 0, checkedTail := 0, ringTail := 0, dropped := 0,
          unread := [], snapshot := none, ordinal := 0, interrupt := false }

/-- TIME_STAMP_TICK: outside GUARD nothing changes. In GUARD, with no expiry due, the 32-bit time stamp rises by 1 and
every running timer falls by 1. A timer that has fallen to 0 is due, and until its expiry has been taken the next tenth
does not begin (log 9), so that each timer expires in the tenth it is due. -/
def Obligations.TickRaisesTheTimeStamp : Prop :=
  (∀ s : State, s.part ≠ .guard → exec .timeStampTick s = .next s)
    ∧ ∀ s : State, s.part = .guard →
      let due := (∃ n, (s.station n).timer = some 0)
        ∨ (∃ f, (s.feeder f).spacing = some 0 ∨ (s.feeder f).restore = some 0)
        ∨ (∃ k, (s.source k).age = some 0)
        ∨ s.airflow.hold = some 0 ∨ s.airflow.deadline = some 0 ∨ s.alarms.stage = some 0
      (due → exec .timeStampTick s = .next s)
      ∧ (¬due → Completes .timeStampTick s (fun t =>
        t.stamp = s.stamp + 1
          ∧ t = { s with
              tenths := s.tenths + 1
              stations := t.stations
              feeders := t.feeders
              sources := t.sources
              airflow := { s.airflow with
                hold := s.airflow.hold.map (fun k => k - 1), deadline := s.airflow.deadline.map (fun k => k - 1) }
              alarms := { s.alarms with stage := s.alarms.stage.map (fun k => k - 1) } }
          ∧ (∀ n, t.station n = { s.station n with timer := (s.station n).timer.map (fun k => k - 1) })
          ∧ (∀ f, t.feeder f = { s.feeder f with
              spacing := (s.feeder f).spacing.map (fun k => k - 1), restore := (s.feeder f).restore.map (fun k => k - 1) })
          ∧ ∀ k, t.source k = { s.source k with age := (s.source k).age.map (fun k => k - 1) }))

/-! ### The ports -/

/-- PORT_WRITE: a master that waits for nothing presents a write to a buffer with room outside ENTERING, and the write
joins the tail; a read it presents is taken (that this row also presents reads is the model's inference, log 3). Nothing
else changes. -/
def Obligations.PortTakesAnAccess : Prop :=
  ∀ (p : Port) (s : State), (s.port p).held = none → (s.port p).read = none → s.part ≠ .entering →
    (∀ w, (s.port p).buffer.length < 8 →
      exec (.portWrite p (.write w)) s =
        .next (s.withPort p { s.port p with buffer := (s.port p).buffer ++ [w] }))
    ∧ ∀ a, exec (.portWrite p (.read a)) s = .next (s.withPort p { s.port p with read := some a })

/-- WRITE_HELD_AT_PORT and HELD_WRITE_ACCEPTED: a write presented to a buffer of 8 writes, or a write or a read in
ENTERING, is held and nothing else changes; outside ENTERING a held write enters the tail once there is room, and a held
read is taken; in ENTERING what is held stays held. Both presentation rows do the same, since the state decides (log 4);
either presents reads too (log 3); and a presentation by a master that still waits changes nothing (log 27). -/
def Obligations.FullPortHoldsAWrite : Prop :=
  (∀ (p : Port) (w : PortWrite) (s : State),
    ((s.port p).held = none → (s.port p).read = none → (s.part = .entering ∨ 8 ≤ (s.port p).buffer.length) →
      exec (.writeHeldAtPort p (.write w)) s = .next (s.withPort p { s.port p with held := some (.write w) }))
    ∧ ((s.port p).held = some (.write w) → s.part ≠ .entering → (s.port p).buffer.length < 8 →
      exec (.heldWriteAccepted p) s =
        .next (s.withPort p { s.port p with held := none, buffer := (s.port p).buffer ++ [w] }))
    ∧ ((s.port p).held = some (.write w) → s.part ≠ .entering → 8 ≤ (s.port p).buffer.length →
      exec (.heldWriteAccepted p) s = .next s)
    ∧ (s.part = .entering → exec (.heldWriteAccepted p) s = .next s))
  ∧ ∀ (p : Port) (a : PortAccess) (s : State),
    exec (.portWrite p a) s = exec (.writeHeldAtPort p a) s
    ∧ ((s.port p).held = none → (s.port p).read = none → s.part = .entering →
        exec (.portWrite p a) s = .next (s.withPort p { s.port p with held := some a }))
    ∧ ((s.port p).held ≠ none ∨ (s.port p).read ≠ none → exec (.portWrite p a) s = .next s)
    ∧ ∀ b, (s.port p).held = some (.read b) → (s.port p).read = none → s.part ≠ .entering →
        exec (.heldWriteAccepted p) s = .next (s.withPort p { s.port p with held := none, read := some b })

/-! ### Dispositions -/

/-- WRITE_DISPOSITION in CAPTURE: the head write of either port passes and stays at the head, whatever its address and
its byte enables; a control port write to FC000h-FDFFFh is marked to be copied and a full one to FFFFCh to close the
setup. In ENTERING no head is disposed of. -/
def Obligations.CapturePassesEveryWrite : Prop :=
  (∀ (p : Port) (w : PortWrite) (rest : List PortWrite) (s : State), s.part = .capture →
    (s.port p).buffer = w :: rest → (s.port p).disposed = none →
      exec (.writeDisposition p) s = .next (s.withPort p { s.port p with
        disposed := some
          (if p = .scanner then .plain
          else if 0xFC000 ≤ w.addr.toNat / 4 * 4 ∧ w.addr.toNat / 4 * 4 < 0xFE000 then .setup
          else if w.addr.toNat / 4 * 4 = 0xFFFFC ∧ w.enables = 15 then .close
          else .plain) }))
    ∧ ∀ (p : Port) (s : State), s.part = .entering → exec (.writeDisposition p) s = .next s ∧ exec .commandWrite s = .next s

/-- WRITE_DISPOSITION of a write that the window decoder refuses in GUARD: it leaves the buffer, one ACCESS_REFUSED
record is handed with the time stamp, the byte address, the reason and the port, and nothing else changes. A write
to FC000h or above is refused SETUP_CLOSED from either port, full or partial. WRITE_DISPOSITION of a write that
passes in GUARD: it stays at the head as a waiting access, with the block that snoops it, and a passing tail becomes
the checked tail. -/
def Obligations.HeadWriteIsRefusedOrWaits : Prop :=
  (∀ (p : Port) (w : PortWrite) (rest : List PortWrite) (s : State), s.part = .guard →
      (s.port p).buffer = w :: rest → (s.port p).disposed = none →
        (0xFC000 ≤ w.addr.toNat / 4 * 4 → s.guardDisposition p w = .refuse .setupClosed)
        ∧ ∀ r, s.guardDisposition p w = .refuse r →
          exec (.writeDisposition p) s = .next { s.withPort p { s.port p with buffer := rest } with
            writer := s.writer.hand
              { kind := .accessRefused, stamp := s.stamp, subject := BitVec.ofNat 32 (w.addr.toNat / 4 * 4),
                detailA := BitVec.ofNat 16 r.code, detailB := if p = .control then 0 else 1 } })
  ∧ (∀ (p : Port) (w : PortWrite) (rest : List PortWrite) (k : PassKind) (s : State), s.part = .guard →
      (s.port p).buffer = w :: rest → (s.port p).disposed = none → s.guardDisposition p w = .pass k →
        exec (.writeDisposition p) s = .next { s.withPort p { s.port p with disposed := some k } with
          writer := if k = .tail then { s.writer with checkedTail := w.data.toNat } else s.writer })

/-- The dispositions of the table of R164 but for the command window: by window, port, word of the window and byte
enables, the checks in their order. A tail is in range when it is a slot of the ring that counting forward from the
checked tail reaches no later than the head (R191); the capacity is 31 for a REPORT window of 512 bytes, 63 for 1024,
127 for 2048 and 255 from 4096 on (R181). The window that covers an address is the first entry of the window table
below the window count whose base is not above it and whose base plus size is (R162), its fields those of the entry's
words in the copy (12.6); without such an entry no window covers it. -/
def Obligations.WindowDispositions : Prop :=
  (∀ (c : Cells Word) (a : Nat),
    let f := fun (k hi lo : Nat) => (Setup.word c k).toNat / 2 ^ lo % 2 ^ (hi + 1 - lo)
    let covers := fun i => f (16 + 4 * i) 31 0 ≤ a ∧ a < f (16 + 4 * i) 31 0 + f (17 + 4 * i) 31 0
    let entry := fun i =>
      ({ base := f (16 + 4 * i) 31 0, size := f (17 + 4 * i) 31 0
         kind := match f (18 + 4 * i) 7 0 with
           | 1 => some .command
           | 2 => some .feedback
           | 3 => some .mailbox
           | 4 => some .report
           | 5 => some .snapshot
           | 6 => some .guarded
           | _ => none
         readOnlyControl := decide (f (18 + 4 * i) 8 8 = 1), readOnlyScanner := decide (f (18 + 4 * i) 9 9 = 1) } : Window)
    (∀ x, Setup.windowAt c a = some x ↔
      ∃ i, i < f 1 31 24 ∧ x = entry i ∧ covers i ∧ ∀ j, j < i → ¬covers j)
    ∧ (Setup.windowAt c a = none ↔ ∀ i, i < f 1 31 24 → ¬covers i)
    ∧ ∀ k, (∀ x, Setup.windowOf c k = some x ↔
          ∃ i, i < f 1 31 24 ∧ x = entry i ∧ x.kind = some k ∧ ∀ j, j < i → (entry j).kind ≠ some k)
        ∧ ∀ x, Setup.windowOf c k = some x → Setup.baseOf c k = x.base)
  ∧ ∀ (s : State) (w : PortWrite), w.addr.toNat / 4 * 4 < 0xFC000 →
    (Setup.windowAt s.copy (w.addr.toNat / 4 * 4) = none → ∀ p, s.guardDisposition p w = .pass .plain)
    ∧ (∀ x, Setup.windowOf s.copy .report = some x →
        (x.size = 512 → Setup.capacity s.copy = 31) ∧ (x.size = 1024 → Setup.capacity s.copy = 63)
        ∧ (x.size = 2048 → Setup.capacity s.copy = 127) ∧ (4096 ≤ x.size → Setup.capacity s.copy = 255))
    ∧ ∀ x, Setup.windowAt s.copy (w.addr.toNat / 4 * 4) = some x →
      let word := (w.addr.toNat / 4 * 4 - x.base) / 4
      let cap := Setup.capacity s.copy
      let inRange := w.data.toNat < cap ∧ ∃ i j, i ≤ j ∧ j < cap
        ∧ (s.writer.checkedTail + j) % cap = s.writer.head ∧ (s.writer.checkedTail + i) % cap = w.data.toNat
      (x.kind = some .command → s.guardDisposition .scanner w = .refuse .port)
      ∧ (x.kind = some .feedback →
          s.guardDisposition .control w = .refuse .port
          ∧ (w.enables ≠ 15 → s.guardDisposition .scanner w = .refuse .partialLanes)
          ∧ (w.enables = 15 → ∀ k : SourceNo, word = k.val → s.guardDisposition .scanner w = .pass (.source k))
          ∧ (w.enables = 15 → 112 ≤ word → s.guardDisposition .scanner w = .pass .plain))
      ∧ (x.kind = some .mailbox →
          s.guardDisposition .scanner w = .refuse .port
          ∧ (w.enables ≠ 15 → word ≤ 6 → s.guardDisposition .control w = .refuse .partialLanes)
          ∧ (w.enables = 15 → word = 0 → s.guardDisposition .control w = .pass .request)
          ∧ (w.enables = 15 → ∀ n : Fin 6, word = n.val + 1 → s.guardDisposition .control w = .pass (.argument n))
          ∧ (word = 7 → s.guardDisposition .control w = .refuse .readOnly)
          ∧ (8 ≤ word → s.guardDisposition .control w = .pass .plain))
      ∧ (x.kind = some .report →
          s.guardDisposition .scanner w = .refuse .port
          ∧ (word ≠ 1 → s.guardDisposition .control w = .refuse .readOnly)
          ∧ (word = 1 → w.enables ≠ 15 → s.guardDisposition .control w = .refuse .partialLanes)
          ∧ (word = 1 → w.enables = 15 → s.writer.head < cap → s.writer.checkedTail < cap →
              (¬inRange → s.guardDisposition .control w = .refuse .badTail)
              ∧ (inRange → s.guardDisposition .control w = .pass .tail)))
      ∧ (x.kind = some .snapshot →
          s.guardDisposition .scanner w = .refuse .port ∧ s.guardDisposition .control w = .refuse .readOnly)
      ∧ (x.kind = some .guarded →
          s.guardDisposition .control w = (if x.readOnlyControl then .refuse .readOnly else .pass .plain)
          ∧ s.guardDisposition .scanner w = (if x.readOnlyScanner then .refuse .readOnly else .pass .plain))

/-- The checks on a control port write to the command window, in their order: PARTIAL, ABSENT, GANGED, BAD_VALUE; a
write that passes all four is absorbed for the station it addresses. -/
def Obligations.CommandWriteChecks : Prop :=
  ∀ (s : State) (w : PortWrite) (x : Window), w.addr.toNat / 4 * 4 < 0xFC000 →
    Setup.windowAt s.copy (w.addr.toNat / 4 * 4) = some x → x.kind = some .command →
      let offset := w.addr.toNat / 4 * 4 - x.base
      (w.enables ≠ 15 → s.guardDisposition .control w = .refuse .partialLanes)
      ∧ (w.enables = 15 → 256 ≤ offset → s.guardDisposition .control w = .refuse .absent)
      ∧ (w.enables = 15 → ∀ n : StationNo, offset / 4 = n.val →
          (s.present n = false → s.guardDisposition .control w = .refuse .absent)
          ∧ (s.present n = true →
              let ganged := (s.static n).leader ≠ n.val ∧ Setup.headsGang s.copy (s.static n).leader = true
              (ganged → s.guardDisposition .control w = .refuse .ganged)
              ∧ (¬ganged → w.data.toNat % 4 = 3 → s.guardDisposition .control w = .refuse .badValue)
              ∧ (¬ganged → w.data.toNat % 4 ≠ 3 → s.guardDisposition .control w = .absorb n)))

/-- COMMAND_WRITE of an accepted write, and WRITE_DISPOSITION alike (that either row absorbs it is log 5): the write
leaves the buffer, and the control request of the station, or of every member of the ganged group it heads, becomes the
direction and speed step written, whatever the turns between their claims (log 11); no other request and no target
changes, and only stations, feeders, reports and the writer's lists may change beside the port. Another station keeps
its record, unless a grant between two members' claims takes it to STARTING. With two members and a grant between their
claims, the state after is what the first claim, the grant and the second claim give in turn. A station heads a ganged
group when it is present, its own leader and ganged, and the members are the present stations whose leader it is (R4). -/
def Obligations.AcceptedCommandSetsRequests : Prop :=
  (∀ (c : Cells Word) (n : Nat),
    let f := fun (k hi lo : Nat) => (Setup.word c k).toNat / 2 ^ lo % 2 ^ (hi + 1 - lo)
    (Setup.headsGang c n = true ↔ f (256 + 4 * n) 0 0 = 1 ∧ f (257 + 4 * n) 7 0 = n ∧ f (256 + 4 * n) 1 1 = 1)
    ∧ Setup.gangMembers c n = allStations.filter (fun m : StationNo =>
        decide (f (256 + 4 * m.val) 0 0 = 1 ∧ f (257 + 4 * m.val) 7 0 = n)))
  ∧ ∀ (w : PortWrite) (rest : List PortWrite) (x : Window) (n : StationNo) (s : State), s.part = .guard →
    s.control.buffer = w :: rest → s.control.disposed = none →
    w.addr.toNat / 4 * 4 < 0xFC000 → Setup.windowAt s.copy (w.addr.toNat / 4 * 4) = some x → x.kind = some .command →
    s.guardDisposition .control w = .absorb n →
      let members := if Setup.headsGang s.copy n.val then Setup.gangMembers s.copy n.val else [n]
      let c : FanCommand :=
        { dir := if w.data.getLsbD 2 then .rev else .fwd,
          speed := if w.data.toNat % 4 = 0 then .off else if w.data.toNat % 4 = 1 then .low else .high }
      let taken : State := { s with control := { s.control with buffer := rest }, turns := s.turns.tail }
      exec (.writeDisposition .control) s = exec .commandWrite s
      ∧ Completes .commandWrite s (fun t =>
        taken.stationsOnly t ∧ t.turns = taken.turns
          ∧ (∀ m ∈ members, (t.station m).request = c)
          ∧ (∀ m, m ∉ members → (t.station m).request = (s.station m).request)
          ∧ (∀ m, (t.station m).target = (s.station m).target)
          ∧ (∀ m, m ∉ members → t.station m = s.station m ∨ (t.station m).state = .starting)
          ∧ ((∀ f, .grant f ∉ s.turns.headD []) → ∀ m, m ∉ members → t.station m = s.station m))
      ∧ ∀ a b f more, members = [a, b] → s.turns = [.claim a, .grant f, .claim b] :: more →
          ∃ u, exec (.grant f) (taken.setRequest a c) = .next u ∧ exec .commandWrite s = .next (u.setRequest b c)

/-- COMMAND_WRITE for a station that heads no group, in each state of the lifecycle. A write of the request held, a STOP
on a request of STOP, a write under a plan target, and any write in STOPPING, DWELL, TRIPPED and LOCKED set the request
alone. Without a target: from OFF a running command queues a START entry. In QUEUED with a START entry STOP removes it
and leads to OFF, and another command retargets it. In QUEUED with a RAISE entry STOP or the opposite direction removes
it and leads to STOPPING, a speed above the effective one retargets it, and one not above removes it and leads to
RUNNING. In STARTING STOP releases the slot and leads to STOPPING, and another command is stored. In RUNNING STOP or the
opposite direction leads to STOPPING, a lower speed is taken at once, and a higher one queues a RAISE entry. Each next
state is given whole. -/
def Obligations.RequestFromOffQueuesTheStation : Prop :=
  ∀ (w : PortWrite) (rest : List PortWrite) (x : Window) (n : StationNo) (s : State), s.part = .guard →
    s.control.buffer = w :: rest → s.control.disposed = none →
    w.addr.toNat / 4 * 4 < 0xFC000 → Setup.windowAt s.copy (w.addr.toNat / 4 * 4) = some x → x.kind = some .command →
    s.guardDisposition .control w = .absorb n → Setup.headsGang s.copy n.val = false →
      let c : FanCommand :=
        { dir := if w.data.getLsbD 2 then .rev else .fwd,
          speed := if w.data.toNat % 4 = 0 then .off else if w.data.toNat % 4 = 1 then .low else .high }
      let d : Station := { s.station n with request := c }
      let e := (s.station n).effective
      let f := s.feederNo n
      let fd := s.feeder f
      let taken : State := { s with control := { s.control with buffer := rest }, turns := s.turns.tail }
      let stored := exec .commandWrite s = .next { taken with stations := s.stations.put n d }
      let shown : State := { taken with writer := s.writer.placeOnce (.station n) }
      let moved : Station := { d with entered := true, writeBackPending := true }
      let stopping : Station :=
        { moved with state := .stopping, effective := { e with speed := .off }, timer := none, stopFlag := false }
      let entry := fun kind : EntryKind =>
        ({ station := n, kind := kind, target := c, cls := .control, entryTime := s.tenths } : QueueEntry)
      let without := fd.queue.filter (fun y => y.station != n)
      let retargeted := exec .commandWrite s = .next { taken with
        stations := s.stations.put n d
        feeders := s.feeders.put f { fd with
          queue := fd.queue.map (fun y => if y.station = n then { y with target := c } else y) } }
      let changed := c ≠ (s.station n).request ∧ ¬(c.speed = .off ∧ (s.station n).request.speed = .off)
      (¬changed ∨ (s.station n).target ≠ none ∨ (s.station n).state = .stopping ∨ (s.station n).state = .dwell
          ∨ (s.station n).state = .tripped ∨ (s.station n).state = .locked → stored)
      ∧ (changed → (s.station n).target = none →
        ((s.station n).state = .off → c.speed = .off → stored)
        ∧ ((s.station n).state = .off → c.speed ≠ .off → e.speed = .off →
            exec .commandWrite s = .next { shown with
              stations := s.stations.put n { moved with state := .queued, timer := none }
              feeders := s.feeders.put f { fd with queue := queueInsert (entry .start) fd.queue } })
        ∧ (∀ y, (s.station n).state = .queued → fd.queue.find? (fun z => z.station == n) = some y → y.cls = .control →
            (y.kind = .start →
              (c.speed ≠ .off → retargeted)
              ∧ (c.speed = .off →
                exec .commandWrite s = .next { shown with
                  stations := s.stations.put n { moved with state := .off }
                  feeders := s.feeders.put f { fd with queue := without } }))
            ∧ (y.kind = .raise → e.speed ≠ .off →
              (c.speed = .off ∨ c.dir ≠ e.dir →
                exec .commandWrite s = .next { shown with
                  stations := s.stations.put n stopping
                  feeders := s.feeders.put f { fd with queue := without } })
              ∧ (c.dir = e.dir → speedCode e.speed < speedCode c.speed → retargeted)
              ∧ (c.dir = e.dir → c.speed ≠ .off → speedCode c.speed ≤ speedCode e.speed →
                exec .commandWrite s = .next { shown with
                  stations := s.stations.put n { moved with state := .running, effective := c }
                  feeders := s.feeders.put f { fd with queue := without } })))
        ∧ ((s.station n).state = .starting →
            (c.speed ≠ .off → stored)
            ∧ (c.speed = .off →
              exec .commandWrite s = .next { shown with
                stations := s.stations.put n stopping
                feeders := s.feeders.put f { fd with slotsInUse := fd.slotsInUse - 1 } }))
        ∧ ((s.station n).state = .running → e.speed ≠ .off →
            (c.speed = .off ∨ c.dir ≠ e.dir →
              exec .commandWrite s = .next { shown with stations := s.stations.put n stopping })
            ∧ (c = e → stored)
            ∧ (c.dir = e.dir → c.speed ≠ .off → speedCode c.speed < speedCode e.speed →
              exec .commandWrite s = .next { shown with
                stations := s.stations.put n { d with effective := c, writeBackPending := true } })
            ∧ (c.dir = e.dir → speedCode e.speed < speedCode c.speed →
              exec .commandWrite s = .next { shown with
                stations := s.stations.put n { moved with state := .queued, timer := none }
                feeders := s.feeders.put f { fd with queue := queueInsert (entry .raise) fd.queue } })))

/-- The order of a start queue (R59): PLAN before CONTROL, a lower rank first, then an earlier entry time, then a lower
station number. The operations of a start queue: an insert puts the entry at its ordered place. A retarget of a
station's entry keeps its place when class and rank stay; otherwise the entry, with the new target, class and rank and
its old kind and entry time, stands at its ordered place. A remove takes the station's entry out and the others keep
their order. -/
def Obligations.StartQueuesKeepTheirOrder : Prop :=
  (∀ a b : QueueEntry, a.before b = true ↔
    (∃ r r', a.cls = .plan r ∧ b.cls = .plan r' ∧ r < r') ∨ (∃ r, a.cls = .plan r ∧ b.cls = .control)
      ∨ (a.cls = b.cls ∧ (a.entryTime < b.entryTime
          ∨ (a.entryTime = b.entryTime ∧ a.station.val < b.station.val))))
  ∧ (∀ (e : QueueEntry) (q : List QueueEntry), (∀ x ∈ q, x.station ≠ e.station) →
    q.Pairwise (fun a b => a.before b = true) →
      (queueInsert e q).Pairwise (fun a b => a.before b = true) ∧ (queueInsert e q).Perm (e :: q))
  ∧ (∀ (n : StationNo) (target : FanCommand) (cls : EntryClass) (q : List QueueEntry) (e : QueueEntry),
    q.Pairwise (fun a b => a.before b = true) → (q.map QueueEntry.station).Nodup → queueFind n q = some e →
      (e.cls = cls → queueRetarget n target cls q =
        q.map (fun x => if x.station = n then { x with target := target } else x))
      ∧ (e.cls ≠ cls → (queueRetarget n target cls q).Pairwise (fun a b => a.before b = true)
        ∧ (queueRetarget n target cls q).Perm
            ({ e with target := target, cls := cls } :: q.filter (fun x => x.station != n))))
  ∧ ∀ (n : StationNo) (q : List QueueEntry), (queueRemove n q).Sublist q
    ∧ ∀ x, x ∈ queueRemove n q ↔ x ∈ q ∧ x.station ≠ n

/-! ### The memory port -/

/-- MEMORY_GRANT: with the port free, a waiting requester that is ahead of every other waiting one (a lower value; at
equal value a larger lost count; at both equal the order image writer, scanner port, control port) is granted. Its lost
count becomes 0, each other waiting requester's rises by 1, and the rest stay. One form is left out, the image writer
with no access to present: while the head of its work list is a record or OVERFLOW entry that has not been checked,
such a grant changes nothing (log 17), which the last clause states. -/
def Obligations.ArbiterGrantsTheBestRequester : Prop :=
  (∀ (r : Requester) (s : State), s.inFlight = none → s.waiting r = true → (r = .image → s.grantImage.isSome = true) →
    let value := fun q => (s.arbiter.of q).base - (s.arbiter.of q).lost
    let place := fun q : Requester => match q with
      | .image => 0
      | .scanner => 1
      | .control => 2
    (∀ q, s.waiting q = true → q ≠ r →
      value r < value q ∨ (value r = value q ∧ ((s.arbiter.of q).lost < (s.arbiter.of r).lost
        ∨ ((s.arbiter.of q).lost = (s.arbiter.of r).lost ∧ place r < place q)))) →
      Completes .memoryGrant s (fun t =>
        (∃ f, t.inFlight = some f ∧ f.requester = r)
          ∧ t.arbiter.of r = { base := (s.arbiter.of r).base, lost := 0 }
          ∧ (∀ q, q ≠ r → t.arbiter.of q = {
              base := (s.arbiter.of q).base,
              lost := (s.arbiter.of q).lost + if s.waiting q = true then 1 else 0 })
          ∧ t.mem = s.mem))
  ∧ ∀ (rest : List WorkEntry) (s : State), s.inFlight = none → s.winner = some .image → s.reading = [] →
      (s.writer.workList = .record false :: rest ∨ s.writer.workList = .overflow none :: rest) →
        exec .memoryGrant s = .next s

/-- MEMORY_GRANT to a port: its passing head write leaves the buffer and is in flight with its address, data and byte
enables; with the buffer empty its read is in flight. Beside the port and the arbiter nothing changes. -/
def Obligations.PortGrantStartsItsAccess : Prop :=
  ∀ (p : Port) (s : State), s.inFlight = none → s.winner = some (requesterOf p) →
    (∀ w rest k, (s.port p).buffer = w :: rest → (s.port p).disposed = some k →
      exec .memoryGrant s = .next { s.withPort p { s.port p with buffer := rest, disposed := none } with
        arbiter := s.arbiterAfter (requesterOf p)
        inFlight := some {
          requester := requesterOf p, owner := .port k,
          transfer := .write (w.addr.toNat / 4 * 4) w.data w.enables } })
    ∧ ∀ a, (s.port p).buffer = [] → (s.port p).read = some a →
      exec .memoryGrant s = .next { s with
        arbiter := s.arbiterAfter (requesterOf p)
        inFlight := some
          { requester := requesterOf p, owner := .portRead p, transfer := .read (a.toNat / 4 * 4) } }

/-- MEMORY_GRANT of a station entry: the command word is composed from the station's fields as they stand, the entry
leaves the work list and write-back pending is cleared. MEMORY_GRANT of the entries of one write: a reply into
mailbox word 7, the dropped count as it stands into report word 2, a setup result into FFFF8h, an ENTERING write
into its word; and of a read of the read-in, which comes ahead of every entry. -/
def Obligations.SingleAccessesOfTheImageWriter : Prop :=
  (∀ (n : StationNo) (rest : List WorkEntry) (s : State), s.inFlight = none → s.winner = some .image → s.reading = [] →
      s.writer.workList = .station n :: rest →
        exec .memoryGrant s = .next { s with
          arbiter := s.arbiterAfter .image
          stations := s.stations.put n { s.station n with writeBackPending := false, entered := false }
          writer := { s.writer with workList := rest, progress := 0 }
          inFlight := some {
            requester := .image, owner := .station n,
            transfer := .write (wordAddr (Setup.baseOf s.copy .command + 4 * n.val))
              (BitVec.ofNat 32 (speedCode (s.station n).effective.speed + 4 * dirCode (s.station n).effective.dir
                + 8 * (s.station n).authority.code + 16 * (s.station n).state.code
                + 256 * tripCauseCode (s.station n).tripCause)) 15 } })
  ∧ (∀ (s : State), s.inFlight = none → s.winner = some .image →
      (∀ n more, s.reading = n :: more →
        exec .memoryGrant s = .next { s with
          arbiter := s.arbiterAfter .image
          reading := more
          inFlight := some {
            requester := .image, owner := .readIn n,
            transfer := .read (wordAddr (Setup.baseOf s.copy .command + 4 * n.val)) } })
      ∧ (s.reading = [] → ∀ (e : WorkEntry) (rest : List WorkEntry) (a : Nat) (w : Word) (o : Owner),
          s.writer.workList = e :: rest →
          ((e = .reply w ∧ a = Setup.baseOf s.copy .mailbox + 28 ∧ o = .none)
            ∨ (e = .droppedCount ∧ a = Setup.baseOf s.copy .report + 8 ∧ w = BitVec.ofNat 32 s.writer.dropped ∧ o = .none)
            ∨ (e = .setupResult w ∧ a = 0xFFFF8 ∧ o = .none)
            ∨ (∃ last, e = .entering a w last ∧ o = if last then .enteringEnd else .none)) →
          exec .memoryGrant s = .next { s with
            arbiter := s.arbiterAfter .image
            writer := { s.writer with workList := rest, progress := 0 }
            inFlight := some { requester := .image, owner := o, transfer := .write (wordAddr a) w 15 } }))

/-- MEMORY_GRANT of a record entry that has come due, and of an OVERFLOW entry that has made its record: the record's
four words go into slot head one grant at a time, then head + 1 (0 after capacity - 1) into report word 0; at that grant
the entry leaves the work list, the internal head advances, and a record entry's record leaves the buffer, which an
OVERFLOW entry leaves as it is. -/
def Obligations.RecordGrantsFillTheSlot : Prop :=
  ∀ (e : WorkEntry) (r : ReportRecord) (after : List ReportRecord) (rest : List WorkEntry) (s : State),
    s.inFlight = none → s.winner = some .image → s.reading = [] → s.writer.workList = e :: rest →
    ((e = .record true ∧ s.writer.buffer = r :: after) ∨ (e = .overflow (some r) ∧ s.writer.buffer = after)) →
    s.writer.head < Setup.capacity s.copy →
      (∀ i, i < 4 → s.writer.progress = i →
        exec .memoryGrant s = .next { s with
          arbiter := s.arbiterAfter .image
          writer := { s.writer with progress := i + 1 }
          inFlight := some {
            requester := .image, owner := .none,
            transfer := .write
              (wordAddr (Setup.baseOf s.copy .report + 16 + 16 * s.writer.head + 4 * i))
              (if i = 0 then BitVec.ofNat 32 (r.kind.code + 65536 * r.detailA.toNat) else if i = 1 then r.stamp
                else if i = 2 then r.subject else r.detailB) 15 } })
      ∧ (s.writer.progress = 4 →
        exec .memoryGrant s = .next { s with
          arbiter := s.arbiterAfter .image
          writer := { s.writer with
            workList := rest, progress := 0, buffer := after,
            head := (s.writer.head + 1) % Setup.capacity s.copy }
          inFlight := some {
            requester := .image, owner := .recordHead r.kind.cls,
            transfer := .write (wordAddr (Setup.baseOf s.copy .report))
              (BitVec.ofNat 32 ((s.writer.head + 1) % Setup.capacity s.copy)) 15 } })

/-- MEMORY_GRANT of the snapshot entry makes its writes in order, and the grant of the last one takes the entry off the
work list: 0 at +12, four words of each slot, the header, the ordinal at +12, 4k + 5 writes for k slots. -/
def Obligations.SnapshotGrantsFollowTheOrder : Prop :=
  ∀ (x : Snapshot) (rest : List WorkEntry) (s : State), s.inFlight = none → s.winner = some .image → s.reading = [] →
    s.writer.workList = .snapshot :: rest → s.writer.snapshot = some x → x.ordinal < 4294967296 →
      let writes := [(3, (0 : Word))]
        ++ (x.slots.map (fun y => (List.range 4).map (fun i => (4 + 4 * y.station.val + i, y.words.getD i 0)))).flatten
        ++ [(0, x.stamp), (1, x.maskLow), (2, x.maskHigh), (3, BitVec.ofNat 32 x.ordinal)]
      writes.length = 4 * x.slots.length + 5
      ∧ ∀ i a w, i = s.writer.progress → writes[i]? = some (a, w) →
        exec .memoryGrant s = .next { s with
          arbiter := s.arbiterAfter .image
          writer := if i + 1 = writes.length then { s.writer with workList := rest, progress := 0 }
            else { s.writer with progress := i + 1 }
          inFlight := some {
            requester := .image,
            owner := if i + 1 = writes.length then .snapshotEnd else .none,
            transfer := .write (wordAddr (Setup.baseOf s.copy .snapshot + 4 * a)) w 15 } }

/-- PLAIN_WRITE (log 6): a write in flight that no block acts on completes and nothing but memory changes; a port's read
returns the word of memory to its master (log 13) and memory stays. -/
def Obligations.PlainAccessCompletes : Prop :=
  (∀ (q : Requester) (a : Nat) (d : Word) (e : BitVec 4) (o : Owner) (s : State), o = .port .plain ∨ o = .none →
    s.inFlight = some { requester := q, transfer := .write a d e, owner := o } →
      Completes .plainWrite s (fun t => Completed s t ∧ t = { s with mem := t.mem, inFlight := none }))
  ∧ ∀ (q : Requester) (a : Nat) (p : Port) (s : State),
    s.inFlight = some { requester := q, transfer := .read a, owner := .portRead p } →
      exec .plainWrite s = .next ({ s with inFlight := none }.withPort p { s.port p with
        read := none
        readData := some (s.mem.readByte (a + 3) ++ s.mem.readByte (a + 2) ++ s.mem.readByte (a + 1) ++ s.mem.readByte a) })

/-! ### Field feedback -/

/-- SOURCE_WRITE: the write completes in memory and the source's record is refreshed; no other source changes. The
word of a source not in use has no further effect but a SOURCE_RESTORED record if it was STALE. The word of a STALE
source in use is handed on with that record made first: it stands in the buffer ahead of every record made in answer,
or is counted as dropped with no room for it. -/
def Obligations.SourceWriteRefreshesItsRecord : Prop :=
  ∀ (q : Requester) (a : Nat) (d : Word) (e : BitVec 4) (k : SourceNo) (s : State), s.part = .guard →
    s.inFlight = some { requester := q, transfer := .write a d e, owner := .port (.source k) } →
      let gap := min 65535 (s.tenths - (s.source k).lastWrite)
      let restored : ReportRecord :=
        { kind := .sourceRestored, stamp := s.stamp, subject := BitVec.ofNat 32 k.val, detailA := 0
          detailB := BitVec.ofNat 32 (gap + 65536 * ((s.source k).staleCount % 256)) }
      Completes .sourceWrite s (fun t =>
        Completed s t
          ∧ t.sources = s.sources.put k { s.source k with
              freshness := .fresh, age := some (Setup.staleTime s.copy k.val), lastWrite := s.tenths,
              lastInterval := gap, maxInterval := max (s.source k).maxInterval gap }
          ∧ t = { s with
              mem := t.mem, inFlight := none, sources := t.sources, stations := t.stations, feeders := t.feeders,
              writer := t.writer, reports := t.reports, airflow := t.airflow, alarms := t.alarms }
          ∧ (sourceInUse s.copy k.val = false →
              t = { s with
                mem := t.mem, inFlight := none, sources := t.sources
                writer := if (s.source k).freshness = .stale then s.writer.hand restored else s.writer })
          ∧ (sourceInUse s.copy k.val = true → (s.source k).freshness = .stale →
              (s.writer.buffer.length < 16 → ∃ more, t.writer.buffer = s.writer.buffer ++ restored :: more)
              ∧ (16 ≤ s.writer.buffer.length →
                  t.writer.buffer = s.writer.buffer ∧ min 65535 (s.writer.dropped + 1) ≤ t.writer.dropped)))

/-- SOURCE_WRITE of a present station's word, its lock and trip flags. A local flag that the lock causes lack adds LOCAL,
and one that is clear takes LOCAL away, each with a LOCK_CHANGED record: the first cause takes the station to LOCKED, the
last one gone takes it to DWELL if the word shows STOPPED and to STOPPING otherwise, and with OPERATOR held it stays in
LOCKED; the word has no further effect. With the flag agreeing, a trip flag takes a station that is neither TRIPPED nor
LOCKED to TRIPPED with DRIVE_TRIP and a STATION_TRIPPED record, and in TRIPPED and LOCKED the word is only recorded. A
station leaving QUEUED loses its entry, one leaving STARTING its slot; going out and coming back is reported while the
feeder is PRESENT. Nothing else changes, no other station among it. -/
def Obligations.StationWordTripsOrLocks : Prop :=
  ∀ (q : Requester) (a : Nat) (w : Word) (e : BitVec 4) (n : StationNo) (s : State), s.part = .guard →
    s.inFlight = some { requester := q, transfer := .write a w e, owner := .port (.source (stationSource n)) } →
    s.present n = true →
      let d : Station := { s.station n with observed := some (observedOf w) }
      let f := s.feeder (s.feederNo n)
      let before := s.wordWriter (stationSource n)
      let supplied := f.supply = .present
      let stop : FanCommand := { (s.station n).effective with speed := .off }
      let moved : Station := { d with effective := stop, entered := true, writeBackPending := true }
      let lockChanged := fun detail : Nat =>
        ({ kind := .lockChanged, stamp := s.stamp, subject := BitVec.ofNat 32 n.val, detailA := 0
           detailB := BitVec.ofNat 32 detail } : ReportRecord)
      ((s.station n).locks = { operator := false, localSwitch := false } → w.getLsbD 9 = true →
        (s.station n).state ≠ .locked →
          Completes .sourceWrite s (fun t => WordTaken s t n
            { moved with
              state := .locked, timer := none, tripCause := none, locks := { operator := false, localSwitch := true } }
            (s.feederLeft n) ((before.placeOnce (.station n)).hand (lockChanged (1 + 2 + 32)))
            (if supplied ∧ (s.station n).state ≠ .tripped then [{ station := n, available := false }] else [])))
      ∧ ((s.station n).locks = { operator := false, localSwitch := true } → w.getLsbD 9 = false →
        (s.station n).state = .locked →
          Completes .sourceWrite s (fun t => WordTaken s t n
            (if w.toNat / 16 % 4 = 0 then
              { moved with
                state := .dwell, timer := some (s.static n).dwell, locks := { operator := false, localSwitch := false } }
            else
              { moved with
                state := .stopping, timer := none, stopFlag := false
                locks := { operator := false, localSwitch := false } })
            f ((before.placeOnce (.station n)).hand (lockChanged 1))
            (if supplied then [{ station := n, available := true }] else [])))
      ∧ ((s.station n).locks.operator = true → (s.station n).locks.localSwitch ≠ w.getLsbD 9 →
        (s.station n).state = .locked →
          Completes .sourceWrite s (fun t => WordTaken s t n
            { d with locks := { operator := true, localSwitch := w.getLsbD 9 } } f
            (before.hand (lockChanged (if w.getLsbD 9 then 1 + 2 + 16 + 32 else 1 + 16))) []))
      ∧ ((s.station n).locks.localSwitch = w.getLsbD 9 →
        ((s.station n).state = .tripped ∨ (s.station n).state = .locked →
          Completes .sourceWrite s (fun t => WordTaken s t n d f before []))
        ∧ ((s.station n).state ≠ .tripped → (s.station n).state ≠ .locked → w.getLsbD 8 = true →
          Completes .sourceWrite s (fun t => WordTaken s t n
            { moved with state := .tripped, timer := none, tripCause := some .driveTrip } (s.feederLeft n)
            ((before.placeOnce (.station n)).hand
              { kind := .stationTripped, stamp := s.stamp, subject := BitVec.ofNat 32 n.val, detailA := 0
                detailB := BitVec.ofNat 32 (1 + 16 * (s.station n).state.code) })
            (if supplied then [{ station := n, available := false }] else []))))

/-- SOURCE_WRITE of a present station's word whose local flag agrees with the lock causes and whose trip flag is clear,
by the state. In OFF and DWELL, and in QUEUED with a START entry, the word is only recorded. STOPPED in RUNNING, and in
QUEUED with a RAISE entry, trips the station with UNEXPECTED_STOP, a STATION_TRIPPED record and a report while the
feeder is PRESENT, and takes it to DWELL otherwise. STOPPED in STARTING on a feeder that is not PRESENT takes it to
DWELL; RUNNING with the effective direction and speed ends a confirmed start in RUNNING, and a requested command that
differs is then taken by the RUNNING rule. STOPPED in STOPPING takes it to DWELL once the stop is confirmed. Every other
word is only recorded. No other station changes. -/
def Obligations.StationWordIsJudged : Prop :=
  ∀ (q : Requester) (a : Nat) (w : Word) (b : BitVec 4) (n : StationNo) (s : State), s.part = .guard →
    s.inFlight = some { requester := q, transfer := .write a w b, owner := .port (.source (stationSource n)) } →
    s.present n = true → (s.station n).locks.localSwitch = w.getLsbD 9 → w.getLsbD 8 = false →
      let d : Station := { s.station n with observed := some (observedOf w) }
      let e := (s.station n).effective
      let c := (s.station n).requested
      let f := s.feeder (s.feederNo n)
      let supplied := f.supply = .present
      let isStopped := w.toNat / 16 % 4 = 0
      let matched := w.toNat / 16 % 4 = 2 ∧ e.speed ≠ .off ∧ w.toNat % 4 = speedCode e.speed
        ∧ w.toNat / 4 % 2 = dirCode e.dir
      let before := s.wordWriter (stationSource n)
      let shown := before.placeOnce (.station n)
      let moved : Station := { d with entered := true, writeBackPending := true }
      let recorded := Completes .sourceWrite s (fun t => WordTaken s t n d f before [])
      let dwells := Completes .sourceWrite s (fun t => WordTaken s t n
        { moved with state := .dwell, effective := { e with speed := .off }, timer := some (s.static n).dwell }
        (s.feederLeft n) shown [])
      let trips := Completes .sourceWrite s (fun t => WordTaken s t n
        { moved with
          state := .tripped, effective := { e with speed := .off }, timer := none, tripCause := some .unexpectedStop }
        (s.feederLeft n)
        (shown.hand
          { kind := .stationTripped, stamp := s.stamp, subject := BitVec.ofNat 32 n.val, detailA := 0
            detailB := BitVec.ofNat 32 (4 + 16 * (s.station n).state.code) })
        [{ station := n, available := false }])
      let starts := fun (x : Station) (y : Feeder) =>
        Completes .sourceWrite s (fun t => WordTaken s t n { x with timer := none } y shown [])
      ((s.station n).state = .off ∨ (s.station n).state = .dwell → recorded)
      ∧ ((s.station n).state = .queued → ∀ x, f.queue.find? (fun y => y.station == n) = some x →
          (x.kind = .start → recorded)
          ∧ (x.kind = .raise → ¬isStopped → recorded)
          ∧ (x.kind = .raise → isStopped → supplied → trips)
          ∧ (x.kind = .raise → isStopped → ¬supplied → dwells))
      ∧ ((s.station n).state = .starting →
          (isStopped → ¬supplied → dwells)
          ∧ (¬(isStopped ∧ ¬supplied) → ((s.station n).timer = none ∨ ¬matched) → recorded)
          ∧ ((s.station n).timer ≠ none → matched →
              (c = e → starts { moved with state := .running } (s.feederLeft n))
              ∧ (c.speed = .off ∨ c.dir ≠ e.dir →
                  starts { moved with state := .stopping, effective := { e with speed := .off }, stopFlag := false }
                    (s.feederLeft n))
              ∧ (c.dir = e.dir → c.speed ≠ .off → speedCode c.speed < speedCode e.speed →
                  starts { moved with state := .running, effective := c } (s.feederLeft n))
              ∧ (c.dir = e.dir → speedCode e.speed < speedCode c.speed →
                  starts { moved with state := .queued }
                    { s.feederLeft n with
                      queue := queueInsert
                        { station := n, kind := .raise, target := c, entryTime := s.tenths
                          cls := match (s.station n).target with
                            | none => .control
                            | some x => .plan x.rank } f.queue })))
      ∧ ((s.station n).state = .running →
          (¬isStopped → recorded) ∧ (isStopped → supplied → trips) ∧ (isStopped → ¬supplied → dwells))
      ∧ ((s.station n).state = .stopping →
          (isStopped ∧ (s.station n).timer ≠ none → dwells)
          ∧ (¬(isStopped ∧ (s.station n).timer ≠ none) → recorded))

/-- SOURCE_WRITE of an active feeder's word: any code but PRESENT makes a PRESENT or RESTORING feeder LOST and stops the
restore timer, with a FEEDER_LOST record and, if it was PRESENT, unavailable reports of its present stations that are not
TRIPPED or LOCKED; PRESENT makes a LOST feeder RESTORING with its restore delay, or PRESENT at once when that is 0, with
a FEEDER_RESTORED record and available reports. PRESENT in PRESENT or RESTORING and another code in LOST change nothing.
Slots, spacing timer and queue stay. -/
def Obligations.FeederWordIsASupplyReport : Prop :=
  ∀ (q : Requester) (a : Nat) (d : Word) (e : BitVec 4) (f : FeederNo) (k : SourceNo) (s : State), s.part = .guard →
    k.val = 64 + f.val → s.activeFeeder f = true →
    s.inFlight = some { requester := q, transfer := .write a d e, owner := .port (.source k) } →
      let stations := allStations.filter (fun n => s.present n && s.feederNo n == f && !(s.station n).state.out)
      let slots := 256 * ((s.feeder f).slotsInUse % 16) + 65536 * ((s.feeder f).queue.length % 256)
      let becomes := fun (x : Feeder) (w : ImageWriter) (more : List AvailabilityReport) =>
        Completes .sourceWrite s (fun t => Completed s t ∧ t = { s with
          mem := t.mem, inFlight := none, sources := t.sources, feeders := s.feeders.put f x, writer := w
          reports := s.reports ++ more })
      let lost : ReportRecord :=
        { kind := .feederLost, stamp := s.stamp, subject := BitVec.ofNat 32 f.val, detailA := 0
          detailB := BitVec.ofNat 32 ((s.feeder f).supply.code + slots) }
      let restored : ReportRecord :=
        { kind := .feederRestored, stamp := s.stamp, subject := BitVec.ofNat 32 f.val, detailA := 0
          detailB := BitVec.ofNat 32 slots }
      (d.toNat % 256 ≠ 1 → (s.feeder f).supply = .present →
        becomes { s.feeder f with supply := .lost, restore := none } ((s.wordWriter k).hand lost)
          (stations.map (fun n => { station := n, available := false })))
      ∧ (d.toNat % 256 ≠ 1 → (s.feeder f).supply = .restoring →
        becomes { s.feeder f with supply := .lost, restore := none } ((s.wordWriter k).hand lost) [])
      ∧ (d.toNat % 256 = 1 → (s.feeder f).supply = .lost → (Setup.feeder s.copy f.val).restoreDelay ≠ 0 →
        becomes { s.feeder f with supply := .restoring, restore := some (Setup.feeder s.copy f.val).restoreDelay }
          (s.wordWriter k) [])
      ∧ (d.toNat % 256 = 1 → (s.feeder f).supply = .lost → (Setup.feeder s.copy f.val).restoreDelay = 0 →
        becomes { s.feeder f with supply := .present, restore := none } ((s.wordWriter k).hand restored)
          (stations.map (fun n => { station := n, available := true })))
      ∧ ((d.toNat % 256 = 1 ∧ (s.feeder f).supply ≠ .lost) ∨ (d.toNat % 256 ≠ 1 ∧ (s.feeder f).supply = .lost) →
        becomes (s.feeder f) (s.wordWriter k) [])

/-- SOURCE_WRITE of an anemometer in use: its table entry takes the reading with its orientation sign and the valid
flag, and is fresh; the other entries stay. In NORMAL the monitor's timers stay too. In FIRE a change of met loads the
hold timer with the plan's hold time or stops it: met becoming true loads it in PENDING and SHORT and stops it in
ESTABLISHED, and met becoming false the other way round. SOURCE_WRITE of a detector in use: the condition held again
changes nothing. A change to ALARM (code 1) joins the segment to the tail of the alarm list, UNCOVERED in NORMAL and
covered with INCIDENT in FIRE, and an uncovered one starts WAIT_CONTROL with T1 from IDLE. A change from ALARM removes
the segment's entry, and when that was the last uncovered one the escalator returns to IDLE. A change to NORMAL (code 0)
or to FAULT (any other code) from the other of the two leaves list and stage alone. Each makes its records; the tenths
shown by a DETECTOR_CLEARED record without an entry are the model's choice (log 32). Met holds exactly when every
anemometer on the plan's watch list is fresh, valid, and in the flow direction at or above the plan's velocity (R126). -/
def Obligations.AnemometerAndDetectorWords : Prop :=
  (∀ (c : Cells Word) (m : AirflowMonitor) (i : Incident),
      let f := fun (k hi lo : Nat) => (Setup.word c k).toNat / 2 ^ lo % 2 ^ (hi + 1 - lo)
      let header := 512 + 4 * (i.plan - 1)
      metFor c m i = true ↔ ∀ j, j < 4 → j < f (header + 1) 7 0 →
        let x := m.anemometers.nth (Fin.ofNat 8 (f (header + 2) (8 * j + 7) (8 * j)))
        x.fresh = true ∧ x.valid = true
          ∧ (f (header + 1) 31 16 : Int) ≤ if i.flow = .fwd then x.velocity else -x.velocity)
  ∧ (∀ (q : Requester) (a : Nat) (d : Word) (e : BitVec 4) (n : AnemometerNo) (k : SourceNo) (s : State), s.part = .guard →
      k.val = 72 + n.val → n.val < Setup.anemometerCount s.copy →
      s.inFlight = some { requester := q, transfer := .write a d e, owner := .port (.source k) } →
        Completes .sourceWrite s (fun t =>
          t.airflow.anemometers = s.airflow.anemometers.put n
              { fresh := true, valid := d.getLsbD 16
                velocity := if Setup.anemometerNegative s.copy n.val then -(d.extractLsb' 0 16).toInt
                  else (d.extractLsb' 0 16).toInt }
            ∧ t.airflow.deadline = s.airflow.deadline ∧ t.airflow.pendingSince = s.airflow.pendingSince
            ∧ (s.incident = none → t.airflow.hold = s.airflow.hold)
            ∧ (∀ i, s.incident = some i → t.airflow.hold =
                if metFor s.copy t.airflow i = metFor s.copy s.airflow i then s.airflow.hold
                else if metFor s.copy t.airflow i = decide (i.airflow = .established) then none
                else some (Setup.plan s.copy i.plan).hold)
            ∧ t.stations = s.stations ∧ t.feeders = s.feeders ∧ t.alarms = s.alarms))
  ∧ (∀ (q : Requester) (a : Nat) (d : Word) (e : BitVec 4) (g : SegmentNo) (k : SourceNo) (s : State), s.part = .guard →
      k.val = 80 + g.val → g.val < Setup.segmentCount s.copy →
      s.inFlight = some { requester := q, transfer := .write a d e, owner := .port (.source k) } →
        let left := s.alarms.conditions.nth g
        let new : Condition := if d.toNat % 256 = 0 then .normal else if d.toNat % 256 = 1 then .alarm else .fault
        let before := s.wordWriter k
        let record := fun (kind : RecordKind) (detail : Nat) =>
          ({ kind := kind, stamp := s.stamp, subject := BitVec.ofNat 32 g.val, detailA := 0
             detailB := BitVec.ofNat 32 detail } : ReportRecord)
        let becomes := fun (x : AlarmEscalator) (w : ImageWriter) =>
          Completes .sourceWrite s (fun t => Completed s t ∧ t = { s with
            mem := t.mem, inFlight := none, sources := t.sources, alarms := x, writer := w })
        let conditions := s.alarms.conditions.put g new
        (left = new → becomes s.alarms before)
        ∧ (left ≠ new → new = .alarm →
          let starts := s.incident = none ∧ s.alarms.escalation = .idle
          becomes
            { s.alarms with
              conditions := conditions
              alarmList := s.alarms.alarmList ++ [{
                segment := g, alarmTime := s.tenths, covering := if s.incident = none then .uncovered else .incident }]
              escalation := if starts then .waitControl else s.alarms.escalation
              stage := if starts then some (Setup.t1 s.copy) else s.alarms.stage }
            (before.hand (record .detectorAlarm
              (left.code + (if s.incident = none then 0 else 256) + 65536 * ((s.alarms.alarmList.length + 1) % 256)))))
        ∧ (∀ x, left = .alarm → new ≠ .alarm → s.alarms.alarmList.find? (fun y => y.segment == g) = some x →
          let kept := s.alarms.alarmList.filter (fun y => y.segment != g)
          let ends := x.covering = .uncovered ∧ s.alarms.escalation ≠ .idle ∧ ∀ y ∈ kept, y.covering ≠ .uncovered
          let cleared := before.hand (record .detectorCleared
            (1 + 4 * new.code + 16 * x.covering.code + 65536 * min 65535 (s.tenths - x.alarmTime)))
          (ends → becomes { s.alarms with conditions := conditions, alarmList := kept, escalation := .idle, stage := none }
            (if new = .fault then cleared.hand (record .detectorFault 1) else cleared))
          ∧ (¬ends → becomes { s.alarms with conditions := conditions, alarmList := kept }
            (if new = .fault then cleared.hand (record .detectorFault 1) else cleared)))
        ∧ (left = .normal → new = .fault →
          becomes { s.alarms with conditions := conditions } (before.hand (record .detectorFault 0)))
        ∧ (left = .fault → new = .normal →
          becomes { s.alarms with conditions := conditions } (before.hand (record .detectorCleared 2))))

/-- AGE_EXPIRY: a source that is not STALE and whose age timer has run out becomes STALE, its timer stops, its stale
count rises to at most 255, and one SOURCE_STALE record is handed. Its measurements stay. Only an anemometer in use has a
further effect: the airflow monitor's entry is no longer fresh, and if met changes by that, the hold timer is stopped in
PENDING and SHORT and loaded in ESTABLISHED; deadline and pending since stay. -/
def Obligations.AgeExpiryMakesASourceStale : Prop :=
  ∀ (k : SourceNo) (s : State), s.part = .guard → (s.source k).freshness ≠ .stale → (s.source k).age = some 0 →
    Completes (.ageExpiry k) s (fun t =>
      t = { s with
          sources := s.sources.put k { s.source k with
            freshness := .stale, age := none, staleCount := min 255 ((s.source k).staleCount + 1) }
          writer := s.writer.hand
            { kind := .sourceStale, stamp := s.stamp, subject := BitVec.ofNat 32 k.val, detailA := 0,
              detailB := BitVec.ofNat 32 ((s.source k).freshness.code + 256 * min 255 ((s.source k).staleCount + 1)) }
          airflow := t.airflow }
        ∧ ((k.val < 72 ∨ 80 ≤ k.val ∨ 72 + Setup.anemometerCount s.copy ≤ k.val) → t.airflow = s.airflow)
        ∧ ∀ n : AnemometerNo, k.val = 72 + n.val → n.val < Setup.anemometerCount s.copy →
            t.airflow.anemometers = s.airflow.anemometers.put n { s.airflow.anemometers.nth n with fresh := false }
              ∧ t.airflow.deadline = s.airflow.deadline ∧ t.airflow.pendingSince = s.airflow.pendingSince
              ∧ (s.incident = none → t.airflow.hold = s.airflow.hold)
              ∧ ∀ i, s.incident = some i → t.airflow.hold =
                  if metFor s.copy t.airflow i = metFor s.copy s.airflow i then s.airflow.hold
                  else if metFor s.copy t.airflow i = decide (i.airflow = .established) then none
                  else some (Setup.plan s.copy i.plan).hold)

/-! ### The mailbox -/

/-- ARGUMENT_WRITE: the write completes in memory and its captured argument takes the value; nothing else changes.
SETUP_WRITE in CAPTURE: the write completes in memory, and each enabled byte replaces the same byte of the copy's
word; its other bytes and every other word stay. SNAPSHOT_COMPLETE: the ordinal write completes and the snapshot
stops being in progress; nothing else changes. -/
def Obligations.CompletionsThatSetOneField : Prop :=
  (∀ (q : Requester) (a : Nat) (d : Word) (e : BitVec 4) (n : Fin 6) (s : State), s.part = .guard →
      s.inFlight = some { requester := q, transfer := .write a d e, owner := .port (.argument n) } →
        Completes .argumentWrite s (fun t =>
          Completed s t ∧ t = { s with mem := t.mem, inFlight := none, args := s.args.put n d }))
  ∧ (∀ (q : Requester) (a : Nat) (d : Word) (e : BitVec 4) (s : State), s.part = .capture →
      s.inFlight = some { requester := q, transfer := .write a d e, owner := .port .setup } →
        let k := (a - 0xFC000) / 4
        Completes .setupWrite s (fun t =>
          Completed s t ∧ t = { s with mem := t.mem, inFlight := none, copy := t.copy }
            ∧ (∀ j, j ≠ k → Setup.word t.copy j = Setup.word s.copy j)
            ∧ ∀ i, i < 4 → (Setup.word t.copy k).extractLsb' (8 * i) 8 =
                if e.getLsbD i then d.extractLsb' (8 * i) 8 else (Setup.word s.copy k).extractLsb' (8 * i) 8))
  ∧ (∀ (q : Requester) (a : Nat) (d : Word) (e : BitVec 4) (s : State), s.part = .guard →
      s.inFlight = some { requester := q, transfer := .write a d e, owner := .snapshotEnd } →
        Completes .snapshotComplete s (fun t =>
          Completed s t ∧ t = { s with mem := t.mem, inFlight := none, writer := { s.writer with snapshot := none } }))

/-- UNKNOWN_REQUEST_KIND: a word 0 value other than 1 to 5 is refused BAD_KIND; the reply carries bits 7:0 of the kind,
outcome REFUSED, reason 12 and the next request count, 1 after 255. -/
def Obligations.UnknownKindIsRefused : Prop :=
  ∀ (kind : Nat) (s : State), s.requestInFlight kind → (kind = 0 ∨ 6 ≤ kind) →
    Completes .unknownRequestKind s (fun t => RefusedOnly s t kind .badKind)
      ∧ (replyWord kind (.refused .badKind) (countAfter s.requestCount)).toNat =
          kind % 256 + 256 * 3 + 65536 * 12 + 16777216 * (countAfter s.requestCount % 256)
      ∧ countAfter s.requestCount = if s.requestCount = 255 then 1 else s.requestCount + 1

/-- An INCIDENT request with a bad action, number, segment or flow is refused in that order and changes nothing else;
so are a DECLARE while a declared incident is active (BUSY), and a REPLAN or RELEASE in NORMAL (NO_INCIDENT) or with
another number (WRONG_NUMBER). An unknown action is taken by any of the three events (log 7). -/
def Obligations.IncidentRequestsAreChecked : Prop :=
  ∀ (s : State), s.requestInFlight 1 →
    ((s.arg 0 = 0 ∨ 3 < s.arg 0) → ∀ c, c = .declare ∨ c = .replan ∨ c = .release →
      Completes c s (fun t => RefusedOnly s t 1 .badArg))
    ∧ ∀ c, (c = .declare ∧ s.arg 0 = 1) ∨ (c = .replan ∧ s.arg 0 = 2) ∨ (c = .release ∧ s.arg 0 = 3) →
      ((s.arg 1 = 0 ∨ 32767 < s.arg 1) → Completes c s (fun t => RefusedOnly s t 1 .badArg))
      ∧ (1 ≤ s.arg 1 → s.arg 1 ≤ 32767 →
          (c ≠ .release → Setup.segmentCount s.copy ≤ s.arg 2 → Completes c s (fun t => RefusedOnly s t 1 .badSegment))
          ∧ (c ≠ .release → s.arg 2 < Setup.segmentCount s.copy → 1 < s.arg 3 →
              Completes c s (fun t => RefusedOnly s t 1 .badArg))
          ∧ ((c = .release ∨ (s.arg 2 < Setup.segmentCount s.copy ∧ s.arg 3 ≤ 1)) →
              (c ≠ .declare → s.incident = none → Completes c s (fun t => RefusedOnly s t 1 .noIncident))
              ∧ (∀ i, c ≠ .declare → s.incident = some i → i.number ≠ s.arg 1 →
                  Completes c s (fun t => RefusedOnly s t 1 .wrongNumber))
              ∧ ∀ i, c = .declare → s.incident = some i → i.origin = .declared →
                  Completes c s (fun t => RefusedOnly s t 1 .busy)))

/-- DECLARE in NORMAL: the incident record is created with the request's number, segment and flow, origin DECLARED,
the plan of the index and the current time, and its plan is applied: the availability view as the stations stand,
every station at the target of its governing tier-1 entry, one without such an entry at none or standing in as the
spare of the lowest-numbered unavailable original that names it, the airflow monitor in PENDING with its deadline, and
its hold time if met holds, an INCIDENT_DECLARED record ahead of the record of each spare search; the escalator is
told; the reply is DONE. Every control request stays, and a station whose target stays keeps its record unless a grant
between the claims starts it (R110, log 11). The entries in force for a station are those of the plan's pool entries,
in pool order, of tier 1, and of tier 2 with boost, whose subject is the station or heads its ganged group (R98). The
governing one governs over every earlier entry and no later one over it: HOLD_OFF over RUN; among HOLD_OFF the lower
rank; among RUN the higher speed, then tier 1, then the lower rank (R99). Its target has the incident's flow, its
rank, and for RUN its speed and tier, for HOLD_OFF tier 1 (R109). -/
def Obligations.DeclareInNormalCreatesTheIncident : Prop :=
  (∀ (l : List PoolEntry) (e : PoolEntry),
    let outranks := fun a b : PoolEntry =>
      (a.role = 2 ∧ (b.role ≠ 2 ∨ a.rank < b.rank))
        ∨ (a.role ≠ 2 ∧ b.role ≠ 2 ∧ (b.speed < a.speed
            ∨ (a.speed = b.speed ∧ (a.tier < b.tier ∨ (a.tier = b.tier ∧ a.rank < b.rank)))))
    governing l = some e ↔
      ∃ before after, l = before ++ e :: after ∧ (∀ x ∈ before, outranks e x) ∧ ∀ x ∈ after, ¬outranks x e)
  ∧ (∀ l, governing l = none ↔ l = [])
  ∧ (∀ (c : Cells Word) (plan : Nat) (boost : Bool) (n : StationNo),
      let f := fun (k hi lo : Nat) => (Setup.word c k).toNat / 2 ^ lo % 2 ^ (hi + 1 - lo)
      let header := 512 + 4 * (plan - 1)
      let entry := fun i =>
        ({ role := f (1024 + i) 1 0, tier := f (1024 + i) 3 2, speed := f (1024 + i) 5 4, rank := f (1024 + i) 11 8
           subject := f (1024 + i) 23 16 } : PoolEntry)
      let present := fun k => f (256 + 4 * k) 0 0 = 1
      let leader := fun k => f (257 + 4 * k) 7 0
      entriesFor c plan boost n = ((List.range (f header 31 16)).map (fun i => entry (f header 15 0 + i))).filter
        (fun e => decide ((e.tier = 1 ∨ (e.tier = 2 ∧ boost = true))
          ∧ if present e.subject ∧ leader e.subject = e.subject ∧ f (256 + 4 * e.subject) 1 1 = 1
            then present n.val ∧ leader n.val = e.subject else n.val = e.subject)))
  ∧ (∀ (flow : Dir) (e : PoolEntry), targetOf flow e =
      { role := if e.role = 2 then .holdOff else .run, dir := flow, rank := e.rank
        speed := if e.role = 2 then .off else if e.speed = 2 then .high else .low
        tier := if e.role = 2 then 1 else e.tier })
  ∧ (∀ (c : Cells Word) (i : Incident) (n : StationNo), planTarget c i n =
      if (Setup.word c (256 + 4 * n.val)).toNat % 2 = 1 then
        (governing (entriesFor c i.plan i.boost n)).map (targetOf i.flow)
      else none)
  ∧ ∀ (s : State), s.requestInFlight 1 → s.arg 0 = 1 → 1 ≤ s.arg 1 → s.arg 1 ≤ 32767 →
    s.arg 2 < Setup.segmentCount s.copy → s.arg 3 ≤ 1 → s.incident = none →
      let flow : Dir := if s.arg 3 = 1 then .rev else .fwd
      let plan := (Setup.word s.copy (104 + (2 * s.arg 2 + s.arg 3))).toNat
      Completes .declare s (fun t =>
        s.planApplied t
            { number := s.arg 1, origin := .declared, segment := s.arg 2, flow := flow, plan := plan,
              declaredTime := s.tenths, boost := false, airflow := .pending }
            { kind := .incidentDeclared, stamp := s.stamp, subject := BitVec.ofNat 32 (s.arg 1)
              detailA := BitVec.ofNat 16 plan, detailB := BitVec.ofNat 32 (s.arg 2 % 256 + 256 * s.arg 3) }
          ∧ t.notices = s.notices + 1 ∧ Replied s t 1 .done ∧ Completed s t
          ∧ ({ s with
                mem := t.mem, inFlight := none, requestCount := t.requestCount, incident := t.incident
                view := t.view, notices := t.notices, airflow := t.airflow } : State).stationsOnly t)

/-- REPLAN of the active incident, and DECLARE adopting an AUTOMATIC one: the incident takes the new segment, flow and
plan with boost cleared and PENDING airflow and keeps its declared time; an adoption also takes the request's number
and origin DECLARED and tells the escalator. The new plan is applied afresh: view, targets from its tier-1 entries alone,
every spare of the old plan dropped and the search made again, the monitor in PENDING, an INCIDENT_REPLANNED or
INCIDENT_ADOPTED record ahead of the searches' records. The reply is DONE. Beside the incident, its view and the monitor
only stations, their queues and what they report change: every control request stays, and a station whose target stays
keeps its record unless a grant between the claims starts it (R110, R118, log 11). -/
def Obligations.ReplanAndAdoptionMoveTheIncident : Prop :=
  ∀ (i : Incident) (s : State), s.requestInFlight 1 → 1 ≤ s.arg 1 → s.arg 1 ≤ 32767 →
    s.arg 2 < Setup.segmentCount s.copy → s.arg 3 ≤ 1 → s.incident = some i →
      let moved : Incident := { i with
        segment := s.arg 2, flow := if s.arg 3 = 1 then .rev else .fwd,
        plan := (Setup.word s.copy (104 + (2 * s.arg 2 + s.arg 3))).toNat, boost := false, airflow := .pending }
      let place := s.arg 2 % 256 + 256 * s.arg 3
      (s.arg 0 = 2 → i.number = s.arg 1 → Completes .replan s (fun t =>
        s.planApplied t moved
            { kind := .incidentReplanned, stamp := s.stamp, subject := BitVec.ofNat 32 i.number
              detailA := BitVec.ofNat 16 moved.plan, detailB := BitVec.ofNat 32 (place + 65536 * (i.plan % 256)) }
          ∧ t.notices = s.notices ∧ Replied s t 1 .done ∧ Completed s t
          ∧ ({ s with
                mem := t.mem, inFlight := none, requestCount := t.requestCount, incident := t.incident
                view := t.view, airflow := t.airflow } : State).stationsOnly t))
      ∧ (s.arg 0 = 1 → i.origin = .automatic → Completes .declare s (fun t =>
        s.planApplied t { moved with number := s.arg 1, origin := .declared }
            { kind := .incidentAdopted, stamp := s.stamp, subject := BitVec.ofNat 32 (s.arg 1)
              detailA := BitVec.ofNat 16 moved.plan, detailB := BitVec.ofNat 32 (place + 65536 * (i.number % 65536)) }
          ∧ t.notices = s.notices + 1 ∧ Replied s t 1 .done ∧ Completed s t
          ∧ ({ s with
                mem := t.mem, inFlight := none, requestCount := t.requestCount, incident := t.incident
                view := t.view, notices := t.notices, airflow := t.airflow } : State).stationsOnly t))

/-- RELEASE with a number in range: NO_INCIDENT in NORMAL and WRONG_NUMBER for another number change nothing else.
With the active incident's number the reply is DONE and the incident is released: the mode is NORMAL, no station has a
plan target, the availability view is gone, the airflow monitor's timers stop, an INCIDENT_RELEASED record shows the
number and the declared time stamp, and beside these only stations, their queues and what they report change: every
control request stays, and a station that had no target keeps its record unless a grant between the claims starts it
(R110, R121, log 11). -/
def Obligations.ReleaseEndsTheIncident : Prop :=
  ∀ (s : State), s.requestInFlight 1 → s.arg 0 = 3 → 1 ≤ s.arg 1 → s.arg 1 ≤ 32767 →
    (s.incident = none → Completes .release s (fun t => RefusedOnly s t 1 .noIncident))
    ∧ ∀ i, s.incident = some i →
      (i.number ≠ s.arg 1 → Completes .release s (fun t => RefusedOnly s t 1 .wrongNumber))
      ∧ (i.number = s.arg 1 → Completes .release s (fun t =>
        t.incident = none ∧ t.view = none ∧ (∀ n, (t.station n).target = none)
          ∧ t.airflow = { s.airflow with hold := none, deadline := none }
          ∧ s.presented t
          ∧ s.writer.tookRecords t.writer [{
              kind := .incidentReleased, stamp := s.stamp, subject := BitVec.ofNat 32 i.number, detailA := 0
              detailB := BitVec.ofNat 32 i.declaredTime }]
          ∧ Replied s t 1 .done ∧ Completed s t
          ∧ ({ s with
                mem := t.mem, inFlight := none, requestCount := t.requestCount, incident := none
                view := none, airflow := t.airflow } : State).stationsOnly t))

/-- ALARM_ACK: a segment at or above the count is BAD_SEGMENT, one without an entry NOT_IN_ALARM, an entry covered by
an incident TOO_LATE; an entry covered with ACK is answered DONE and stays; an UNCOVERED one is covered with ACK, and if
none is left the escalator returns to IDLE, its stage timer stopped. -/
def Obligations.AlarmAckCoversTheEntry : Prop :=
  ∀ (s : State), s.requestInFlight 2 →
    (Setup.segmentCount s.copy ≤ s.arg 0 → Completes .alarmAck s (fun t => RefusedOnly s t 2 .badSegment))
    ∧ ∀ g : SegmentNo, s.arg 0 = g.val → g.val < Setup.segmentCount s.copy →
      (s.alarms.entryOf g = none → Completes .alarmAck s (fun t => RefusedOnly s t 2 .notInAlarm))
      ∧ ∀ x, s.alarms.entryOf g = some x →
        (x.covering = .incident → Completes .alarmAck s (fun t => RefusedOnly s t 2 .tooLate))
        ∧ (x.covering = .ack → Completes .alarmAck s (fun t => Completed s t ∧ t = { s with
            mem := t.mem, inFlight := none, requestCount := countAfter s.requestCount
            writer := s.writer.append (.reply (replyWord 2 .done (countAfter s.requestCount))) }))
        ∧ (x.covering = .uncovered → s.alarms.escalation ≠ .idle → Completes .alarmAck s (fun t =>
            t.alarms.alarmList = s.alarms.alarmList.map (fun y => if y.segment = g then { y with covering := .ack } else y)
              ∧ t.alarms.conditions = s.alarms.conditions ∧ t.alarms.nextNumber = s.alarms.nextNumber
              ∧ (t.alarms.uncoveredCount = 0 → t.alarms.escalation = .idle ∧ t.alarms.stage = none)
              ∧ (t.alarms.uncoveredCount ≠ 0 →
                  t.alarms.escalation = s.alarms.escalation ∧ t.alarms.stage = s.alarms.stage)
              ∧ Completed s t ∧ t = { s with
                  mem := t.mem, inFlight := none, requestCount := countAfter s.requestCount, alarms := t.alarms
                  writer := s.writer.append (.reply (replyWord 2 .done (countAfter s.requestCount))) }))

/-- LOCK: no present station named is NO_STATION, an argument above 1 BAD_ARG. On for a station with no lock cause takes
it to LOCKED; off for one held by OPERATOR alone takes it to DWELL if observed STOPPED and to STOPPING otherwise; a set
that changes with LOCAL held leaves the state. The effective command of a station in LOCKED, and of one that has left it,
is STOP. Each change makes one LOCK_CHANGED record with the causes after it; a set that does not change makes none. On
entry to LOCKED the start queue entry of a station in QUEUED is removed and the slot of one in STARTING released (R24,
R48). While the feeder is PRESENT the entry is reported as unavailable, but from TRIPPED, and the way out as available;
otherwise no report is made (R50). No other station changes. -/
def Obligations.LockRequestMovesTheStation : Prop :=
  ∀ (s : State), s.requestInFlight 3 →
    ((64 ≤ s.arg 0 ∨ ∃ n : StationNo, n.val = s.arg 0 ∧ s.present n = false) →
      Completes .lock s (fun t => RefusedOnly s t 3 .noStation))
    ∧ ∀ n : StationNo, n.val = s.arg 0 → s.present n = true →
      let supplied := (s.feeder (s.feederNo n)).supply = .present
      let out := (s.station n).state = .tripped ∨ (s.station n).state = .locked
      let changed := fun (t : State) (detail : Nat) (f : Feeder) (reports : List AvailabilityReport) =>
        t.feeders = s.feeders.put (s.feederNo n) f ∧ t.reports = s.reports ++ reports ∧ s.writer.tookRecords t.writer [{
            kind := .lockChanged, stamp := s.stamp, subject := BitVec.ofNat 32 n.val, detailA := 0
            detailB := BitVec.ofNat 32 detail }]
          ∧ (∀ m, m ≠ n → t.station m = s.station m) ∧ Replied s t 3 .done ∧ Completed s t
          ∧ ({ s with mem := t.mem, inFlight := none, requestCount := t.requestCount } : State).stationsOnly t
      (1 < s.arg 1 → Completes .lock s (fun t => RefusedOnly s t 3 .badArg))
      ∧ (s.arg 1 ≤ 1 → (s.station n).locks.operator = decide (s.arg 1 = 1) →
          Completes .lock s (fun t => Completed s t ∧ t = { s with
            mem := t.mem, inFlight := none, requestCount := countAfter s.requestCount,
            writer := s.writer.append (.reply (replyWord 3 .done (countAfter s.requestCount))) }))
      ∧ (s.arg 1 = 1 → (s.station n).locks = { operator := false, localSwitch := false } →
          Completes .lock s (fun t =>
            (t.station n).state = .locked ∧ (t.station n).locks = { operator := true, localSwitch := false }
              ∧ (t.station n).effective = { (s.station n).effective with speed := .off }
              ∧ (t.station n).timer = none ∧ (t.station n).tripCause = none
              ∧ (t.station n).request = (s.station n).request ∧ (t.station n).target = (s.station n).target
              ∧ changed t (2 + 16) (s.feederLeft n)
                  (if supplied ∧ ¬out then [{ station := n, available := false }] else [])))
      ∧ (s.arg 1 = 0 → (s.station n).locks = { operator := true, localSwitch := false } →
          Completes .lock s (fun t =>
            (t.station n).locks = { operator := false, localSwitch := false }
              ∧ (t.station n).effective = { (s.station n).effective with speed := .off }
              ∧ (t.station n).request = (s.station n).request ∧ (t.station n).target = (s.station n).target
              ∧ ((∃ o, (s.station n).observed = some o ∧ o.drive = .stopped) →
                  (t.station n).state = .dwell ∧ (t.station n).timer = some (s.static n).dwell)
              ∧ (¬(∃ o, (s.station n).observed = some o ∧ o.drive = .stopped) →
                  (t.station n).state = .stopping ∧ (t.station n).timer = none ∧ (t.station n).stopFlag = false)
              ∧ changed t 0 (s.feederLeft n) (if supplied ∧ out then [{ station := n, available := true }] else [])))
      ∧ (s.arg 1 ≤ 1 → (s.station n).locks = { operator := decide (s.arg 1 = 0), localSwitch := true } →
          Completes .lock s (fun t =>
            t.station n = { s.station n with locks := { operator := decide (s.arg 1 = 1), localSwitch := true } }
              ∧ changed t (if s.arg 1 = 1 then 2 + 16 + 32 else 32) (s.feeder (s.feederNo n)) []))

/-- TRIP_RESET: NO_STATION, NOT_TRIPPED and STILL_TRIPPED in that order; otherwise the station leaves TRIPPED for DWELL
with the full dwell time, no trip cause and effective STOP, without a record, and is reported as available while its
feeder is PRESENT, and otherwise not (R50). No queue, no slot and no other station changes. -/
def Obligations.TripResetTakesTheStationToDwell : Prop :=
  ∀ (s : State), s.requestInFlight 4 →
    ((64 ≤ s.arg 0 ∨ ∃ n : StationNo, n.val = s.arg 0 ∧ s.present n = false) →
      Completes .tripReset s (fun t => RefusedOnly s t 4 .noStation))
    ∧ ∀ n : StationNo, n.val = s.arg 0 → s.present n = true →
      ((s.station n).state ≠ .tripped → Completes .tripReset s (fun t => RefusedOnly s t 4 .notTripped))
      ∧ ((s.station n).state = .tripped → (∃ o, (s.station n).observed = some o ∧ o.trip = true) →
          Completes .tripReset s (fun t => RefusedOnly s t 4 .stillTripped))
      ∧ ((s.station n).state = .tripped → (∀ o, (s.station n).observed = some o → o.trip = false) →
          Completes .tripReset s (fun t =>
            (t.station n).state = .dwell ∧ (t.station n).timer = some (s.static n).dwell
              ∧ (t.station n).tripCause = none ∧ (t.station n).request = (s.station n).request
              ∧ (t.station n).target = (s.station n).target
              ∧ (t.station n).effective = { (s.station n).effective with speed := .off }
              ∧ t.feeders = s.feeders ∧ s.writer.tookRecords t.writer []
              ∧ t.reports = s.reports
                  ++ (if (s.feeder (s.feederNo n)).supply = .present then [{ station := n, available := true }] else [])
              ∧ (∀ m, m ≠ n → t.station m = s.station m) ∧ Replied s t 4 .done ∧ Completed s t
              ∧ ({ s with mem := t.mem, inFlight := none, requestCount := t.requestCount } : State).stationsOnly t))

/-- SNAPSHOT: BUSY while one is in progress, BAD_ARG for an empty mask; otherwise it takes the current time, the masks,
the next ordinal and a slot of each selected station in ascending order, is in progress, and its reply and then its
entry join the work list. The words of a slot hold number, present flag, segment, state, authority, trip cause, lock
causes and stop flag; requested command, effective command and timer (FFFFh when not running); freshness, stale count
and last interval; maximum interval. An absent station is shown at its reset values with segment 0. The direction of a
requested command under a HOLD_OFF target is the model's choice (log 30). -/
def Obligations.SnapshotIsTaken : Prop :=
  ∀ (s : State), s.requestInFlight 5 →
    (s.writer.snapshot.isSome = true → Completes .snapshot s (fun t => RefusedOnly s t 5 .busy))
    ∧ (s.writer.snapshot = none → s.args.nth 0 = 0 → s.args.nth 1 = 0 →
        Completes .snapshot s (fun t => RefusedOnly s t 5 .badArg))
    ∧ (s.writer.snapshot = none → (s.args.nth 0 ≠ 0 ∨ s.args.nth 1 ≠ 0) →
        Completes .snapshot s (fun t =>
          Completed s t ∧ t = { s with
            mem := t.mem, inFlight := none, requestCount := countAfter s.requestCount,
            writer := { s.writer with
              snapshot := t.writer.snapshot, ordinal := s.writer.ordinal + 1
              workList := s.writer.workList
                ++ [.reply (replyWord 5 .accepted (countAfter s.requestCount)), .snapshot] } }
          ∧ ∃ x, t.writer.snapshot = some x ∧ x.stamp = s.stamp ∧ x.maskLow = s.args.nth 0 ∧ x.maskHigh = s.args.nth 1
            ∧ x.ordinal = s.writer.ordinal + 1
            ∧ x.slots.map SnapshotSlot.station = allStations.filter (fun n =>
                if n.val < 32 then (s.args.nth 0).getLsbD n.val else (s.args.nth 1).getLsbD (n.val - 32))
            ∧ ∀ y ∈ x.slots,
                let d := s.station y.station
                let source := s.source (stationSource y.station)
                let flag := fun (b : Bool) (i : Nat) => if b = true then 2 ^ i else 0
                let requested : FanCommand := match d.target with
                  | none => d.request
                  | some z => { dir := z.dir, speed := if z.role = .holdOff then .off else z.speed }
                let command := fun c : FanCommand => speedCode c.speed + 4 * dirCode c.dir
                y.words =
                  [ BitVec.ofNat 32 (y.station.val +
                      (if s.present y.station = true then
                        64 + 256 * ((s.static y.station).segment % 32) + 65536 * d.state.code + flag d.target.isSome 20
                          + 2 ^ 24 * tripCauseCode d.tripCause + flag d.locks.operator 28 + flag d.locks.localSwitch 29
                          + flag d.stopFlag 30
                      else 0)),
                    BitVec.ofNat 32
                      (if s.present y.station = true then
                        command requested + 256 * command d.effective + 65536 * (d.timer.getD 65535 % 65536)
                      else 65536 * 65535),
                    BitVec.ofNat 32
                      (source.freshness.code + 256 * (source.staleCount % 256) + 65536 * (source.lastInterval % 65536)),
                    BitVec.ofNat 32 (source.maxInterval % 65536) ]))

/-! ### Reports -/

/-- A record is handed to the buffer with a record entry while the buffer holds fewer than 16, and is counted as
dropped otherwise, the count staying at 65535. -/
def Obligations.HandedRecordIsKeptOrCounted : Prop :=
  ∀ (w : ImageWriter) (r : ReportRecord),
    (w.buffer.length < 16 →
      w.hand r = { w with buffer := w.buffer ++ [r], workList := w.workList ++ [.record false] })
    ∧ (16 ≤ w.buffer.length →
      w.hand r = { w with
        dropped := if w.dropped < 65535 then w.dropped + 1 else 65535
        workList := if .droppedCount ∈ w.workList then w.workList else w.workList ++ [.droppedCount] })

/-- RECORD_DUE and OVERFLOW at the head of the work list. The ring is full when the head less the ring tail, modulo the
capacity, is the capacity less 1 (R190), the capacity being that of R181. With the ring full the record leaves the
buffer and the list and is counted as dropped, and the OVERFLOW entry leaves; otherwise the record is presented, and the
OVERFLOW entry takes the dropped count into its record and sets it to 0. -/
def Obligations.HeadEntryIsCheckedAgainstTheRing : Prop :=
  ∀ (rest : List WorkEntry) (s : State), s.part = .guard → s.writer.ringTail < Setup.capacity s.copy →
    let full := (s.writer.head + Setup.capacity s.copy - s.writer.ringTail) % Setup.capacity s.copy
      = Setup.capacity s.copy - 1
    (∀ x, Setup.windowOf s.copy .report = some x →
        (x.size = 512 → Setup.capacity s.copy = 31) ∧ (x.size = 1024 → Setup.capacity s.copy = 63)
        ∧ (x.size = 2048 → Setup.capacity s.copy = 127) ∧ (4096 ≤ x.size → Setup.capacity s.copy = 255))
    ∧ (s.writer.workList = .record false :: rest →
      (¬full →
        exec .recordDue s = .next { s with writer := { s.writer with workList := .record true :: rest } })
      ∧ (full →
        exec .recordDue s = .next { s with writer := { s.writer with
          buffer := s.writer.buffer.tail, progress := 0
          dropped := if s.writer.dropped < 65535 then s.writer.dropped + 1 else 65535
          workList := if .droppedCount ∈ rest then rest else rest ++ [.droppedCount] } }))
    ∧ (s.writer.workList = .overflow none :: rest →
      (full →
        exec .overflow s = .next { s with writer := { s.writer with workList := rest, progress := 0 } })
      ∧ (¬full →
        exec .overflow s = .next { s with writer := { s.writer with
          dropped := 0
          workList := (.overflow (some {
              kind := .overflow, stamp := s.stamp, subject := 0, detailA := 0
              detailB := BitVec.ofNat 32 s.writer.dropped }) :: rest)
            ++ if .droppedCount ∈ rest then [] else [.droppedCount] } }))

/-- RECORD_HEAD_COMPLETION: the head write completes, the record's class joins the tail of the unread class list,
and the interrupt output is asserted exactly if an enabled class has unread records. TAIL_WRITE: the ring tail
becomes the value written, the classes of the slots passed leave the head of the unread class list, and the interrupt is
judged again. With no drop to announce, no slot freed, or an OVERFLOW entry on the work list (waiting or under way,
log 18), the work list stays. Otherwise an OVERFLOW entry joins it: behind the entry whose accesses are under way, or at
the head if none is, a record entry that had come due there being checked again at its turn. -/
def Obligations.UnreadRecordsFollowHeadAndTail : Prop :=
  (∀ (q : Requester) (a : Nat) (d : Word) (e : BitVec 4) (cls : RecordClass) (s : State), s.part = .guard →
      s.inFlight = some { requester := q, transfer := .write a d e, owner := .recordHead cls } →
        Completes .recordHeadCompletion s (fun t =>
          Completed s t ∧ t = { s with
            mem := t.mem, inFlight := none
            writer := { s.writer with unread := s.writer.unread ++ [cls], interrupt := t.writer.interrupt } }
          ∧ (t.writer.interrupt = true ↔
              ∃ c, Setup.classEnabled s.copy c = true ∧ 0 < t.writer.unreadOf c)))
  ∧ (∀ (q : Requester) (a : Nat) (d : Word) (e : BitVec 4) (s : State), s.part = .guard →
      s.inFlight = some { requester := q, transfer := .write a d e, owner := .port .tail } →
        let freed := ringDiff (Setup.capacity s.copy) d.toNat s.writer.ringTail
        Completes .tailWrite s (fun t =>
          Completed s t ∧ t = { s with
            mem := t.mem, inFlight := none
            writer := { s.writer with
              ringTail := d.toNat, unread := s.writer.unread.drop freed, interrupt := t.writer.interrupt
              workList := t.writer.workList } }
          ∧ (s.writer.ringTail < Setup.capacity s.copy → d.toNat < Setup.capacity s.copy →
              (s.writer.ringTail + freed) % Setup.capacity s.copy = d.toNat ∧ freed < Setup.capacity s.copy)
          ∧ (t.writer.interrupt = true ↔
              ∃ c, Setup.classEnabled s.copy c = true ∧ 0 < t.writer.unreadOf c)
          ∧ (freed = 0 ∨ s.writer.dropped = 0 ∨ (∃ x ∈ s.writer.workList, x.isOverflow = true) →
              t.writer.workList = s.writer.workList)
          ∧ (0 < freed → 0 < s.writer.dropped → (∀ x ∈ s.writer.workList, x.isOverflow = false) →
              (s.writer.workList = [] → t.writer.workList = [.overflow none])
              ∧ ∀ x l, s.writer.workList = x :: l →
                  (0 < s.writer.progress → t.writer.workList = x :: .overflow none :: l)
                  ∧ (s.writer.progress = 0 → (∃ due, x = .record due) →
                      t.writer.workList = .overflow none :: .record false :: l)
                  ∧ (s.writer.progress = 0 → (∀ due, x ≠ .record due) →
                      t.writer.workList = .overflow none :: x :: l))))

/-! ### Setup capture -/

/-- The checksum is the sum of the 2048 words of the copy in 32 bits (R178). CLOSE in CAPTURE (R177): the close count
rises, from 255 back to 1. A checksum of the copy that differs from the close value places the result BAD_SUM with
offset 0, a failing check (R179) its code and offset, and the part stays in CAPTURE with nothing else changed (R180).
Otherwise (R181) the base priorities take the header's values, the OK result and the five ENTERING writes (R183) join
the work list, the read-in of the present stations starts (R182), and the part is in ENTERING. The ten checks of a
close: their order and codes, the word offsets each examines in order, and what it asks there, every field written out
from its word of the copy (12.6). The first check that finds a fault gives its code, and the first entry at fault of
that check its offset. The setup result word holds the code 1 to 12 in bits 7:0, the close count in bits 15:8 and the
word offset in bits 31:16 (12.6). -/
def Obligations.CloseIsJudged : Prop :=
  (∀ x ∈ [ (SetupCode.ok, 1), (.badSum, 2), (.badFormat, 3), (.badCount, 4), (.badWindow, 5), (.badStation, 6),
        (.badFeeder, 7), (.badTiming, 8), (.badIndex, 9), (.badPlanHeader, 10), (.badPlanEntry, 11),
        (.badReportWindow, 12) ],
    ∀ count offset, count < 256 → offset < 65536 →
      (resultWord x.1 count offset).toNat = x.2 + 256 * count + 65536 * offset) ∧
  (∀ c : Cells Word, checksum c = (List.range 2048).foldl (fun acc k => acc + Setup.word c k) 0)
  ∧ (∀ (q : Requester) (a : Nat) (d : Word) (e : BitVec 4) (s : State), s.part = .capture →
    s.inFlight = some { requester := q, transfer := .write a d e, owner := .port .close } →
      let count := if s.closeCount = 255 then 1 else s.closeCount + 1
      let sum := checksum s.copy
      let fault := Setup.firstFault (Setup.checks s.copy)
      (∀ code offset, (sum ≠ d ∧ code = .badSum ∧ offset = 0) ∨ (sum = d ∧ fault = some (code, offset)) →
        Completes .close s (fun t =>
          Completed s t ∧ t = { s with
            mem := t.mem, inFlight := none, closeCount := count
            writer := { s.writer with
              workList := s.writer.workList ++ [.setupResult (resultWord code count offset)] } }))
      ∧ (sum = d → fault = none → Completes .close s (fun t =>
          Completed s t ∧ t = { s with
            mem := t.mem, inFlight := none, closeCount := count, part := .entering
            reading := allStations.filter (fun n => (Setup.station s.copy n.val).present)
            arbiter :=
              { image := { s.arbiter.image with base := Setup.basePriorityImage s.copy }
                scanner := { s.arbiter.scanner with base := Setup.basePriorityScanner s.copy }
                control := { s.arbiter.control with base := Setup.basePriorityControl s.copy } }
            writer := { s.writer with workList := s.writer.workList ++
              [ .setupResult (resultWord .ok count 0),
                .entering (Setup.baseOf s.copy .report) 0 false,
                .entering (Setup.baseOf s.copy .report + 4) 0 false,
                .entering (Setup.baseOf s.copy .report + 8) 0 false,
                .entering (Setup.baseOf s.copy .report + 12) (BitVec.ofNat 32 (Setup.capacity s.copy)) false,
                .entering (Setup.baseOf s.copy .snapshot + 12) 0 true ] } })))
  ∧ (∀ (before after : List (SetupCode × List (Nat × Bool))) (code : SetupCode) (good bad : List (Nat × Bool)) (k : Nat),
      (∀ x ∈ before, ∀ y ∈ x.2, y.2 = true) → (∀ y ∈ good, y.2 = true) →
        Setup.firstFault (before ++ (code, good ++ (k, false) :: bad) :: after) = some (code, k))
  ∧ (∀ l : List (SetupCode × List (Nat × Bool)), (∀ x ∈ l, ∀ y ∈ x.2, y.2 = true) → Setup.firstFault l = none)
  ∧ ∀ c : Cells Word,
      let f := fun (k hi lo : Nat) => (Setup.word c k).toNat / 2 ^ lo % 2 ^ (hi + 1 - lo)
      let segments := f 1 7 0
      let feeders := f 1 15 8
      let anemometers := f 1 23 16
      let windows := f 1 31 24
      let plans := f 2 7 0
      let entries := f 2 26 16
      let base := fun i => f (16 + 4 * i) 31 0
      let size := fun i => f (17 + 4 * i) 31 0
      let kind := fun i => f (18 + 4 * i) 7 0
      let present := fun n => n < 64 ∧ f (256 + 4 * n) 0 0 = 1
      let leader := fun n => f (257 + 4 * n) 7 0
      let stations := (List.range 64).filter (fun n => decide (present n))
      let range := fun (lo hi n : Nat) => lo ≤ n ∧ n ≤ hi
      Setup.checks c =
        [ (.badFormat, [(0, decide (f 0 31 0 = 1))]),
          (.badCount,
            [ (1, decide (range 1 32 segments ∧ range 1 8 feeders ∧ range 0 8 anemometers ∧ range 5 8 windows)),
              (2, decide (range 1 64 plans ∧ range 1 1024 entries)),
              (4, decide (f 4 7 0 ≤ 7 ∧ f 4 15 8 ≤ 7 ∧ f 4 23 16 ≤ 7)) ]),
          (.badWindow,
            (List.range windows).map (fun i => (16 + 4 * i, decide (range 1 6 (kind i)
              ∧ 64 ≤ size i ∧ (2 ^ Nat.log2 (size i) = size i) ∧ base i % size i = 0 ∧ base i + size i ≤ 0xFC000
              ∧ (∀ j, j < i → (base j + size j ≤ base i ∨ base i + size i ≤ base j) ∧ (kind i = 6 ∨ kind j ≠ kind i))
              ∧ (kind i = 1 → 256 ≤ size i) ∧ (kind i = 2 → 512 ≤ size i) ∧ (kind i = 5 → 2048 ≤ size i))))
            ++ [(1, decide (∀ k ∈ List.range 5, ∃ i ∈ List.range windows, kind i = k + 1))]),
          (.badStation, stations.map (fun n => (256 + 4 * n, decide (f (256 + 4 * n) 15 8 < feeders
              ∧ f (256 + 4 * n) 23 16 < segments ∧ leader n ≤ n ∧ present (leader n) ∧ leader (leader n) = leader n
              ∧ (f (257 + 4 * n) 16 16 = 1 → present (f (257 + 4 * n) 15 8) ∧ f (257 + 4 * n) 15 8 ≠ n))))),
          (.badFeeder, (List.range feeders).map (fun i => (48 + 2 * i,
              decide (range 1 4 (f (48 + 2 * i) 7 0) ∧ f (48 + 2 * i) 31 16 ≤ 600 ∧ f (49 + 2 * i) 15 0 ≤ 1200)))),
          (.badTiming,
            [ (5, decide (range 5 100 (f 5 15 0) ∧ range 5 100 (f 5 31 16))),
              (6, decide (range 5 100 (f 6 15 0) ∧ range 5 100 (f 6 31 16))),
              (7, decide (range 10 600 (f 7 15 0) ∧ range 10 600 (f 7 31 16))) ]
            ++ stations.map (fun n => (256 + 4 * n, decide (range 10 1200 (f (258 + 4 * n) 15 0)
              ∧ range 50 600 (f (258 + 4 * n) 31 16) ∧ range 50 1200 (f (259 + 4 * n) 15 0))))),
          (.badIndex, (List.range (2 * segments)).map (fun i => (104 + i, decide (range 1 plans (f (104 + i) 31 0))))),
          (.badPlanHeader, (List.range plans).map (fun p => (512 + 4 * p, decide (f (512 + 4 * p) 15 0 < entries
              ∧ range 1 64 (f (512 + 4 * p) 31 16) ∧ f (512 + 4 * p) 15 0 + f (512 + 4 * p) 31 16 ≤ entries
              ∧ range 1 4 (f (513 + 4 * p) 7 0)
              ∧ (∀ i, i < 4 → i < f (513 + 4 * p) 7 0 → f (514 + 4 * p) (8 * i + 7) (8 * i) < anemometers)
              ∧ range 50 500 (f (513 + 4 * p) 31 16) ∧ range 50 600 (f (515 + 4 * p) 15 0)
              ∧ range 300 3000 (f (515 + 4 * p) 31 16))))),
          (.badPlanEntry, (List.range entries).map (fun i => (1024 + i, decide (range 1 2 (f (1024 + i) 1 0)
              ∧ range 1 2 (f (1024 + i) 3 2) ∧ (f (1024 + i) 1 0 = 2 → f (1024 + i) 3 2 = 1)
              ∧ present (f (1024 + i) 23 16) ∧ (f (1024 + i) 1 0 = 1 → range 1 2 (f (1024 + i) 5 4)))))),
          (.badReportWindow,
            (List.range windows).map (fun i => (16 + 4 * i, decide (kind i = 4 → 512 ≤ size i)))) ]

/-- READ_IN in ENTERING: the station takes the direction and speed step read, code 3 as OFF, as its effective command
and control request, is RUNNING if that is not STOP and OFF otherwise, with write-back pending and its entry on the work
list; its other fields take their reset values and no other station changes. -/
def Obligations.ReadInSetsTheStation : Prop :=
  ∀ (q : Requester) (a : Nat) (n : StationNo) (s : State), s.part = .entering →
    s.inFlight = some { requester := q, transfer := .read a, owner := .readIn n } →
      let w := s.mem.readWord a
      let c : FanCommand :=
        { dir := if w.getLsbD 2 then .rev else .fwd
          speed := if w.toNat % 4 = 1 then .low else if w.toNat % 4 = 2 then .high else .off }
      exec .readIn s = .next { s with
        inFlight := none
        stations := s.stations.put n
          { state := if c.speed = .off then .off else .running, request := c, target := none, effective := c
            writeBackPending := true, timer := none, observed := none
            locks := { operator := false, localSwitch := false }, tripCause := none, stopFlag := false
            entered := false }
        writer := s.writer.placeOnce (.station n) }

/-- GUARD_ENTRY: the snapshot completion word's write completes in ENTERING and the part enters GUARD at time stamp 0
with feeders PRESENT and idle, every source UNSEEN with its stale time running, no incident, the monitor and the
escalator at their reset values, arguments and request count 0, the image writer at its reset values but for its work
list. Stations, copy and memory beside the write stay; the ports' writes are disposed of anew, and what they held is
taken (log 21). -/
def Obligations.GuardEntryTakesTheStartingValues : Prop :=
  ∀ (q : Requester) (a : Nat) (d : Word) (e : BitVec 4) (s : State), s.part = .entering →
    s.inFlight = some { requester := q, transfer := .write a d e, owner := .enteringEnd } →
      Completes .guardEntry s (fun t =>
        Completed s t ∧ t.part = .guard ∧ t.stamp = 0 ∧ t.stations = s.stations ∧ t.copy = s.copy
          ∧ (∀ f, t.feeder f = { supply := .present, slotsInUse := 0, spacing := none, restore := none, queue := [] })
          ∧ (∀ k, t.source k = {
              freshness := .unseen, age := some (Setup.staleTime s.copy k.val), lastWrite := 0, lastInterval := 0,
              maxInterval := 0, staleCount := 0 })
          ∧ t.incident = none ∧ t.view = none ∧ t.airflow = State.reset.airflow ∧ t.alarms = State.reset.alarms
          ∧ (∀ n, t.args.nth n = 0) ∧ t.requestCount = 0
          ∧ t.writer = { State.reset.writer with workList := s.writer.workList }
          ∧ t.arbiter = { s.arbiter with image := { s.arbiter.image with lost := 0 } }
          ∧ t = { State.reset with
              pending := s.pending, turns := s.turns, part := .guard, mem := t.mem, copy := s.copy, closeCount := s.closeCount
              reading := s.reading, control := t.control, scanner := t.scanner, arbiter := t.arbiter
              stations := s.stations, feeders := t.feeders, sources := t.sources, writer := t.writer }
          ∧ ∀ p, (t.port p).disposed = none
            ∧ (∀ w, (s.port p).held = some (.write w) → (s.port p).buffer.length < 8 →
                (t.port p).buffer = (s.port p).buffer ++ [w] ∧ (t.port p).held = none)
            ∧ (∀ b, (s.port p).held = some (.read b) → (s.port p).read = none →
                (t.port p).read = some b ∧ (t.port p).buffer = (s.port p).buffer)
            ∧ ((s.port p).held = none → t.port p = { s.port p with disposed := none }))

/-! ### Feeders and stations -/

/-- GRANT: on an active PRESENT feeder with a free slot, no spacing timer and a non-empty queue, the head entry leaves
the queue, slots in use rises by 1, the spacing timer takes the start spacing (0 loads nothing), and the entry's station
enters STARTING at the entry's target with its timer not running and its write-back pending, its entry on the work list.
Its request, plan target, observed, lock causes, trip cause and stop flag stay, and no record is made. With a condition
missing nothing changes. -/
def Obligations.GrantStartsTheHeadOfTheQueue : Prop :=
  ∀ (f : FeederNo) (s : State), s.part = .guard →
    (∀ x rest, (s.feeder f).queue = x :: rest → s.activeFeeder f = true → (s.feeder f).supply = .present →
      (s.feeder f).slotsInUse < (Setup.feeder s.copy f.val).slots → (s.feeder f).spacing = none →
        Completes (.grant f) s (fun t =>
          t.feeders = s.feeders.put f { s.feeder f with
              queue := rest, slotsInUse := (s.feeder f).slotsInUse + 1
              spacing := if (Setup.feeder s.copy f.val).spacing = 0 then none
                else some (Setup.feeder s.copy f.val).spacing }
            ∧ (t.station x.station).state = .starting ∧ (t.station x.station).effective = x.target
            ∧ (t.station x.station).timer = none
            ∧ ((s.station x.station).state ≠ .starting →
                t.station x.station = { s.station x.station with
                  state := .starting, effective := x.target, timer := none, entered := true, writeBackPending := true }
                ∧ t.writer = s.writer.placeOnce (.station x.station))
            ∧ (∀ m, m ≠ x.station → t.station m = s.station m)
            ∧ t = { s with stations := t.stations, feeders := t.feeders, writer := t.writer }
            ∧ t.writer.buffer = s.writer.buffer))
    ∧ (((s.feeder f).queue = [] ∨ s.activeFeeder f = false ∨ (s.feeder f).supply ≠ .present
        ∨ (Setup.feeder s.copy f.val).slots ≤ (s.feeder f).slotsInUse ∨ (s.feeder f).spacing ≠ none) →
          exec (.grant f) s = .next s)

/-- SPACING_EXPIRY stops the spacing timer; RESTORE_EXPIRY makes a RESTORING feeder PRESENT with a FEEDER_RESTORED
record and an available report for each of its present stations not TRIPPED or LOCKED. Nothing else changes. -/
def Obligations.FeederTimersExpire : Prop :=
  ∀ (f : FeederNo) (s : State), s.part = .guard →
    ((s.feeder f).spacing = some 0 →
      exec (.spacingExpiry f) s = .next { s with feeders := s.feeders.put f { s.feeder f with spacing := none } })
    ∧ ((s.feeder f).supply = .restoring → (s.feeder f).restore = some 0 →
      Completes (.restoreExpiry f) s (fun t =>
        t = { s with
            feeders := s.feeders.put f { s.feeder f with supply := .present, restore := none }
            writer := t.writer
            reports := s.reports
              ++ (allStations.filter (fun n => s.present n && s.feederNo n == f && !(s.station n).state.out)).map
                (fun n => { station := n, available := true }) }
          ∧ t.writer = s.writer.hand {
              kind := .feederRestored, stamp := s.stamp, subject := BitVec.ofNat 32 f.val, detailA := 0
              detailB := BitVec.ofNat 32
                (256 * ((s.feeder f).slotsInUse % 16) + 65536 * ((s.feeder f).queue.length % 256)) }))

/-- The expiries of a station's timer. START_TIMEOUT trips it with START_FAIL if its source is FRESH and NO_FEEDBACK
otherwise, releasing its slot, with a STATION_TRIPPED record; STOP_TIMEOUT_EXPIRY takes it to DWELL with the stop flag
set and a STOP_TIMEOUT record, whose drive state field is 0 when observed is absent (the model's choice, log 31);
DWELL_EXPIRY takes it to OFF when the requested command is STOP and to QUEUED with a START entry at its place in its
feeder's queue otherwise, without a record. The trip is reported as unavailable while the feeder is PRESENT, and no other
report is made (R50). No other queue, slot or station changes. -/
def Obligations.StationTimersExpire : Prop :=
  ∀ (n : StationNo) (s : State), s.part = .guard → (s.station n).timer = some 0 →
    let shown := s.writer.placeOnce (.station n)
    let f := s.feederNo n
    let fails := (s.source (stationSource n)).freshness = .fresh
    ((s.station n).state = .starting → Completes (.startTimeout n) s (fun t =>
      (t.station n).state = .tripped
        ∧ (t.station n).tripCause = some (if fails then .startFail else .noFeedback)
        ∧ (t.station n).effective = { (s.station n).effective with speed := .off } ∧ (t.station n).timer = none
        ∧ t.feeders = s.feeders.put f { s.feeder f with slotsInUse := (s.feeder f).slotsInUse - 1 }
        ∧ t.reports = s.reports
            ++ (if (s.feeder f).supply = .present then [{ station := n, available := false }] else [])
        ∧ t.writer = shown.hand
            { kind := .stationTripped, stamp := s.stamp, subject := BitVec.ofNat 32 n.val, detailA := 0
              detailB := BitVec.ofNat 32 ((if fails then 2 else 3) + 16 * 2) }
        ∧ (∀ m, m ≠ n → t.station m = s.station m) ∧ s.stationsOnly t))
    ∧ ((s.station n).state = .stopping → Completes (.stopTimeoutExpiry n) s (fun t =>
      (t.station n).state = .dwell ∧ (t.station n).timer = some (s.static n).dwell ∧ (t.station n).stopFlag = true
        ∧ (t.station n).effective = { (s.station n).effective with speed := .off }
        ∧ t.feeders = s.feeders ∧ t.reports = s.reports
        ∧ t.writer = shown.hand
            { kind := .stopTimeout, stamp := s.stamp, subject := BitVec.ofNat 32 n.val, detailA := 0
              detailB := BitVec.ofNat 32 (match (s.station n).observed with
                | none => 16
                | some o => o.drive.code) }
        ∧ (∀ m, m ≠ n → t.station m = s.station m) ∧ s.stationsOnly t))
    ∧ ((s.station n).state = .dwell → (s.station n).requested.speed = .off →
      Completes (.dwellExpiry n) s (fun t =>
        (t.station n).state = .off ∧ (t.station n).timer = none ∧ t.writer = shown
          ∧ (t.station n).effective = (s.station n).effective ∧ t.feeders = s.feeders ∧ t.reports = s.reports
          ∧ (∀ m, m ≠ n → t.station m = s.station m) ∧ s.stationsOnly t))
    ∧ ((s.station n).state = .dwell → (s.station n).requested.speed ≠ .off →
      Completes (.dwellExpiry n) s (fun t =>
        (t.station n).state = .queued ∧ (t.station n).timer = none ∧ t.writer = shown
          ∧ (t.station n).effective = (s.station n).effective ∧ t.reports = s.reports
          ∧ ((s.station n).effective.speed = .off → t.feeders = s.feeders.put f { s.feeder f with
              queue := queueInsert
                { station := n, kind := .start, target := (s.station n).requested, entryTime := s.tenths
                  cls := match (s.station n).target with
                    | none => .control
                    | some x => .plan x.rank } (s.feeder f).queue })
          ∧ (∃ x ∈ (t.feeder (s.feederNo n)).queue, x.station = n ∧ x.target = (s.station n).requested
              ∧ x.entryTime = s.tenths)
          ∧ (∀ m, m ≠ n → t.station m = s.station m) ∧ s.stationsOnly t))

/-- WRITE_BACK_COMPLETION: a completion granted after the station's latest state entry, its timer not running, loads the
start timeout in STARTING and the stop timeout in STOPPING; in every other case only the memory write completes. -/
def Obligations.ConfirmingCompletionStartsTheTimeout : Prop :=
  ∀ (q : Requester) (a : Nat) (d : Word) (e : BitVec 4) (n : StationNo) (s : State), s.part = .guard →
    s.inFlight = some { requester := q, transfer := .write a d e, owner := .station n } →
      let timeout := if (s.station n).entered = true ∨ (s.station n).timer ≠ none then none
        else if (s.station n).state = .starting then some (s.static n).startTimeout
        else if (s.station n).state = .stopping then some (s.static n).stopTimeout
        else none
      Completes .writeBackCompletion s (fun t =>
        Completed s t ∧ t = { s with mem := t.mem, inFlight := none, stations := t.stations }
          ∧ ∀ m, t.station m =
              if m = n ∧ timeout ≠ none then { s.station n with timer := timeout } else s.station m)

/-! ### Airflow and incident -/

/-- HOLD_EXPIRY in PENDING or SHORT makes the airflow ESTABLISHED with both timers stopped; its AIRFLOW_ESTABLISHED
record shows the plan, the state left, the tenths since pending since, and the lowest velocity in the flow direction
among the watched anemometers, of which the low 16 bits (log 15). LOSS_EXPIRY in ESTABLISHED returns to PENDING with the
hold timer stopped, the plan's deadline loaded and pending since now; its AIRFLOW_LOST record shows the plan and the
first failing anemometer of that moment with its segment and reason. Nothing else changes. -/
def Obligations.HoldTimerExpiryMovesTheAirflow : Prop :=
  ∀ (i : Incident) (s : State), s.part = .guard → s.incident = some i → s.airflow.hold = some 0 →
    (i.airflow ≠ .established → Completes .holdExpiry s (fun t => ∃ lowest : Int,
      let speeds := (Setup.watchList s.copy i.plan).map (fun a =>
        if i.flow = .fwd then (s.airflow.anemometers.nth (Fin.ofNat 8 a)).velocity
        else -(s.airflow.anemometers.nth (Fin.ofNat 8 a)).velocity)
      (∀ v ∈ speeds, lowest ≤ v) ∧ (speeds ≠ [] → lowest ∈ speeds)
        ∧ t = { s with
            incident := some { i with airflow := .established }
            airflow := { s.airflow with hold := none, deadline := none }
            writer := s.writer.hand
              { kind := .airflowEstablished, stamp := s.stamp, subject := BitVec.ofNat 32 i.number
                detailA := BitVec.ofNat 16 (i.plan % 256 + if i.airflow = .short then 256 else 0)
                detailB := BitVec.ofNat 32 (min 65535 (s.tenths - s.airflow.pendingSince)
                  + 65536 * (BitVec.ofInt 16 lowest).toNat) } }))
    ∧ (i.airflow = .established → Completes .lossExpiry s (fun t => ∃ reason detail,
      s.showsFailing i reason detail
        ∧ t = { s with
            incident := some { i with airflow := .pending }
            airflow := { s.airflow with
              hold := none, deadline := some (Setup.plan s.copy i.plan).deadline, pendingSince := s.tenths }
            writer := s.writer.hand
              { kind := .airflowLost, stamp := s.stamp, subject := BitVec.ofNat 32 i.number
                detailA := BitVec.ofNat 16 (i.plan % 256 + 256 * reason), detailB := BitVec.ofNat 32 detail } }))

/-- DEADLINE_EXPIRY in PENDING. With boost not applied and a tier-2 entry in the plan, boost is applied: the deadline
is loaded again and the airflow stays PENDING; every station that is no engaged spare takes the target of its
governing entry of either tier; an engaged spare stays, a copy of its original's RUN target; a station without an
entry holds none or is engaged for the lowest-numbered unavailable original that gained its RUN target and names it. A
BOOST_APPLIED record with the plan and its number of tier-2 entries stands ahead of those searches' records. One whose
RUN target the boost changes is not searched for, the model's choice (log 33), and unavailable is judged from the
station as it stands (log 34). Every control request stays, and a station whose target stays keeps its record unless a
grant between the claims starts it (log 11). Otherwise the airflow becomes SHORT with the deadline stopped and the
hold timer going on; the AIRFLOW_SHORT record shows plan, boost, and the first failing anemometer with its segment and
reason. -/
def Obligations.DeadlineBoostsOrFallsShort : Prop :=
  ∀ (i : Incident) (s : State), s.part = .guard → s.incident = some i → i.airflow = .pending →
    s.airflow.deadline = some 0 →
      let tierTwo := (Setup.planEntries s.copy i.plan).filter (fun x => x.tier == 2)
      let governs := fun n => if s.present n then governing (entriesFor s.copy i.plan true n) else none
      (i.boost = false → tierTwo ≠ [] → Completes .deadlineExpiry s (fun t =>
        let gained := s.searched t (fun n => !isRun (s.station n).target)
        let kept := fun n => (standsFor (s.station n).target).isSome
        t.incident = some { i with boost := true }
          ∧ t.airflow = { s.airflow with deadline := some (Setup.plan s.copy i.plan).deadline }
          ∧ ({ s with incident := t.incident, airflow := t.airflow } : State).stationsOnly t ∧ s.presented t
          ∧ (∀ n x, standsFor (s.station n).target = none → governs n = some x →
              (t.station n).target = some (targetOf i.flow x))
          ∧ (∀ n x o, (s.station n).target = some x → x.role = .spare o →
              (∀ y, (t.station o).target = some y → y.role = .run →
                  (t.station n).target = some { y with role := .spare o })
              ∧ (isRun (t.station o).target = false → (t.station n).target = some x))
          ∧ (∀ n, standsFor (s.station n).target = none → governs n = none →
              s.spareOrNone t (fun o => !isRun (s.station o).target) n)
          ∧ (∀ o sp, o ∈ gained → (s.static o).spareSet = true → (s.static o).spare = sp.val → s.available sp = true →
              (t.station sp).target ≠ none)
          ∧ s.writer.tookRecords t.writer
              ({ kind := .boostApplied, stamp := s.stamp, subject := BitVec.ofNat 32 i.number
                 detailA := BitVec.ofNat 16 i.plan, detailB := BitVec.ofNat 32 tierTwo.length }
                :: gained.map (s.searchRecord t kept))))
      ∧ (¬(i.boost = false ∧ tierTwo ≠ []) → Completes .deadlineExpiry s (fun t => ∃ reason detail,
        s.showsFailing i reason detail
          ∧ t = { s with
              incident := some { i with airflow := .short }, airflow := { s.airflow with deadline := none }
              writer := s.writer.hand
                { kind := .airflowShort, stamp := s.stamp, subject := BitVec.ofNat 32 i.number
                  detailA := BitVec.ofNat 16 (i.plan % 256 + 256 * reason + if i.boost then 4096 else 0)
                  detailB := BitVec.ofNat 32 detail } }))

/-- T1_EXPIRY in WAIT_CONTROL enters WAIT_FINAL with T2 and hands one ALARM_ESCALATION record; T2_EXPIRY in WAIT_FINAL
covers every uncovered entry, returns to IDLE, and asks for an automatic declaration of the oldest uncovered segment
with its default flow and the next automatic number, which then advances, from 65535 back to 32768. -/
def Obligations.EscalationStagesExpire : Prop :=
  ∀ (x : AlarmEntry) (s : State), s.part = .guard → s.alarms.stage = some 0 →
    s.alarms.alarmList.find? (fun y => y.covering == .uncovered) = some x →
      (s.alarms.escalation = .waitControl →
        exec .t1Expiry s = .next { s with
          alarms := { s.alarms with escalation := .waitFinal, stage := some (Setup.t2 s.copy) }
          writer := s.writer.hand {
            kind := .alarmEscalation, stamp := s.stamp, subject := BitVec.ofNat 32 x.segment.val, detailA := 1
            detailB := BitVec.ofNat 32
              (s.alarms.alarmList.filter (fun y => y.covering == .uncovered)).length } })
      ∧ (s.alarms.escalation = .waitFinal →
        exec .t2Expiry s = .next { s with
          alarms := { s.alarms with
            alarmList := s.alarms.alarmList.map
              (fun y => if y.covering = .uncovered then { y with covering := .incident } else y)
            escalation := .idle, stage := none
            nextNumber := if s.alarms.nextNumber = 65535 then 32768 else s.alarms.nextNumber + 1 }
          autoRequests := s.autoRequests ++ [{
            segment := x.segment.val, number := s.alarms.nextNumber
            flow := if (Setup.word s.copy (72 + x.segment.val)).toNat % 256 = 1 then .rev else .fwd }] })

/-- AUTOMATIC_DECLARATION takes the oldest request (the model's inference, log 12): in NORMAL it declares an AUTOMATIC
incident with the request's number, segment and flow, whose plan is applied as a declaration applies it, with an
INCIDENT_DECLARED record; in FIRE it leaves the incident as it is. Either way the escalator is answered and no reply is
made: no reply entry joins the work list and the request count stays. DECLARATION_ANSWER takes the oldest answer (log 12):
taken, it covers every uncovered entry and returns the escalator to IDLE, and DECLARATION_NOTICE does the same; not taken,
it leaves the alarms and hands one ALARM_ESCALATION record with the unused number. -/
def Obligations.AutomaticDeclarationIsAnswered : Prop :=
  (∀ (r : AutoRequest) (rest : List AutoRequest) (s : State), s.part = .guard → s.autoRequests = r :: rest →
      let plan := (Setup.word s.copy (104 + (2 * r.segment + dirCode r.flow))).toNat
      (s.incident = none → Completes .automaticDeclaration s (fun t =>
        s.planApplied t
            { number := r.number, origin := .automatic, segment := r.segment, flow := r.flow, plan := plan
              declaredTime := s.tenths, boost := false, airflow := .pending }
            { kind := .incidentDeclared, stamp := s.stamp, subject := BitVec.ofNat 32 r.number
              detailA := BitVec.ofNat 16 plan
              detailB := BitVec.ofNat 32 (r.segment % 256 + 256 * dirCode r.flow + 512) }
          ∧ (∀ w, t.writer.workList.count (.reply w) = s.writer.workList.count (.reply w))
          ∧ ({ s with
                autoRequests := rest, answers := s.answers ++ [{ taken := true, request := r }]
                incident := t.incident, view := t.view, airflow := t.airflow } : State).stationsOnly t))
      ∧ (s.incident ≠ none →
        exec .automaticDeclaration s =
          .next { s with autoRequests := rest, answers := s.answers ++ [{ taken := false, request := r }] }))
  ∧ (∀ (s : State), s.part = .guard →
      let covered : AlarmEscalator := { s.alarms with
        alarmList := s.alarms.alarmList.map
          (fun y => if y.covering = .uncovered then { y with covering := .incident } else y)
        escalation := .idle, stage := none }
      (∀ x rest, s.answers = x :: rest → x.taken = true →
        exec .declarationAnswer s = .next { s with answers := rest, alarms := covered })
      ∧ (∀ x rest, s.answers = x :: rest → x.taken = false →
        exec .declarationAnswer s = .next { s with
          answers := rest
          writer := s.writer.hand {
            kind := .alarmEscalation, stamp := s.stamp, subject := BitVec.ofNat 32 x.request.segment, detailA := 2
            detailB := BitVec.ofNat 32 x.request.number } })
      ∧ ∀ k, s.notices = k + 1 → exec .declarationNotice s = .next { s with notices := k, alarms := covered })

/-- AVAILABILITY_REPORT takes the oldest report. In NORMAL, or agreeing with the view, it has no other effect; in FIRE
against the view the view takes it. For a RUN-target station that became unavailable with no spare standing in for it the
search is made: its spare is engaged, with a copy of its target and a SPARE_ENGAGED record, when it is set, available and
without a target; otherwise one SPARE_NONE record is made with the first condition that fails: 1 no spare set, 2 spare
unavailable (a number of 64 or above, which no close lets in, among them: log 26), 3 spare planned, 4 spare in use. With
a spare standing in for it, for another role and for a station that became available only the view changes. -/
def Obligations.AvailabilityReportSeeksASpare : Prop :=
  ∀ (r : AvailabilityReport) (rest : List AvailabilityReport) (s : State), s.part = .guard → s.reports = r :: rest →
    (s.incident = none → exec .availabilityReport s = .next { s with reports := rest })
    ∧ ∀ i v, s.incident = some i → s.view = some v →
      let seen : State := { s with reports := rest, view := some (v.put r.station r.available) }
      let coveredBy := fun m => ∃ y, (s.station m).target = some y ∧ y.role = .spare r.station
      let spare := (s.static r.station).spare
      (v.nth r.station = r.available → exec .availabilityReport s = .next { s with reports := rest })
      ∧ (v.nth r.station ≠ r.available →
        (r.available = true ∨ isRun (s.station r.station).target = false ∨ (∃ m, coveredBy m) →
          exec .availabilityReport s = .next seen)
        ∧ ∀ x, r.available = false → (s.station r.station).target = some x → x.role = .run → (∀ m, ¬coveredBy m) →
          let missed := fun reason number : Nat =>
            exec .availabilityReport s = .next { seen with writer := s.writer.hand {
              kind := .spareNone, stamp := s.stamp, subject := BitVec.ofNat 32 r.station.val
              detailA := BitVec.ofNat 16 reason, detailB := BitVec.ofNat 32 (number % 256) } }
          ((s.static r.station).spareSet = false → missed 1 255)
          ∧ ((s.static r.station).spareSet = true → 64 ≤ spare → missed 2 spare)
          ∧ ∀ sp : StationNo, (s.static r.station).spareSet = true → spare = sp.val →
            (s.available sp = false → missed 2 spare)
            ∧ (∀ y, s.available sp = true → (s.station sp).target = some y →
                (y.role = .run ∨ y.role = .holdOff → missed 3 spare)
                ∧ (∀ o, y.role = .spare o → missed 4 spare))
            ∧ (s.available sp = true → (s.station sp).target = none →
                Completes .availabilityReport s (fun t =>
                  (t.station sp).target = some { x with role := .spare r.station }
                    ∧ (∀ m, m ≠ sp → t.station m = s.station m)
                    ∧ s.writer.tookRecords t.writer [{
                        kind := .spareEngaged, stamp := s.stamp, subject := BitVec.ofNat 32 spare, detailA := 0
                        detailB := BitVec.ofNat 32 r.station.val }]
                    ∧ t.turns = s.turns ∧ seen.stationsOnly t)))

/-! ### The laws every step keeps -/

/-- Memory and the internal copy stay in their canonical form, so that equal contents are equal data. No buffer ever
holds more than the part has room for, and the dropped count stays within 65535. The report ring keeps its law: head and
tails are slots of the ring, the unread records fill it from the ring tail up to the head, at most capacity - 1 of them,
the checked tail and a tail write on its way lie among them in their order, and an entry that has passed its check has a
free slot. -/
def Obligations.EveryStepKeepsFormAndBounds : Prop :=
  (∀ s t : State, s.canonical → step s = .next t → t.canonical)
  ∧ (∀ s t : State, s.bounded → step s = .next t → t.bounded)
  ∧ (∀ s t : State, s.ringLaw → step s = .next t → t.ringLaw)

/-- A station has a plan target only while an incident is active. While the stations meet the laws of their states and
queues, the targets of an incident keep theirs: a station that is no engaged spare holds what the plan in force gives
it; an engaged spare is the one its original names, has no tier-1 target of its own and copies its original's RUN target;
and no station held off is in QUEUED, STARTING or RUNNING. The alarm list and the escalation keep theirs: a segment is in
the list exactly while its condition is ALARM, and once; the escalator waits, its stage timer running, exactly while an
UNCOVERED entry stands in the list. -/
def Obligations.EveryStepKeepsTheIncidentLaw : Prop :=
  (∀ s t : State, s.incidentLaw → step s = .next t → t.incidentLaw)
  ∧ (∀ s t : State, s.incidentLaw → s.queueLaw → s.lifecycleLaw → s.targetLaw → step s = .next t → t.targetLaw)
  ∧ (∀ s t : State, s.alarms.law → step s = .next t → t.alarms.law)

/-- A station has an entry in a start queue if and only if it is in QUEUED: in its own feeder's queue, exactly one. While
that holds, every queue stays in the order of R59 with no entry time ahead of the current one. -/
def Obligations.EveryStepKeepsTheQueueLaw : Prop :=
  (∀ s t : State, s.queueLaw → step s = .next t → t.queueLaw)
  ∧ (∀ s t : State, s.queueLaw → s.orderLaw → step s = .next t → t.orderLaw)

/-- Slots in use is the number of the feeder's stations in STARTING, and never exceeds its start slots, while the queue
law holds. -/
def Obligations.EveryStepKeepsTheSlotLaw : Prop :=
  ∀ s t : State, s.queueLaw → s.slotLaw ∧ s.slotBound → step s = .next t → t.slotLaw ∧ t.slotBound

/-- A station is in LOCKED exactly while its lock causes are non-empty and in TRIPPED exactly while its trip cause is
set, while the queue law holds. While it holds, requested command, effective command and timer are what each station's
state fixes, and every start queue entry holds its station's requested command, authority and rank. Under both laws a
step within GUARD keeps the reversal discipline (R52): a running effective command is followed by one of the same
direction or by STOPPING, DWELL, TRIPPED or LOCKED; STOPPING, TRIPPED and LOCKED are followed by one of these four;
DWELL is entered with the full dwell time, which only falls by single tenths, and is left for OFF or QUEUED only at 0. -/
def Obligations.EveryStepKeepsLocksAndTrips : Prop :=
  (∀ s t : State, s.queueLaw → s.outLaw → step s = .next t → t.outLaw)
  ∧ (∀ s t : State, s.queueLaw → s.lifecycleLaw → step s = .next t → t.lifecycleLaw)
  ∧ ∀ s t : State, s.part = .guard → s.queueLaw → s.lifecycleLaw → step s = .next t → t.part = .guard →
      ∀ n, (s.station n).reversesOnlyThroughDwell (t.station n) (s.static n).dwell

/-- A station's entry waits on the work list exactly while its write-back is pending, and at most once. The work list
holds at most one dropped-count entry, one OVERFLOW entry and one snapshot entry, the last only while its snapshot is in
progress, and one record entry for each record in the buffer; outside GUARD it holds none of these. Whatever a step within
GUARD does, a station whose effective command, authority, state or trip cause it changes has its write-back pending after
it (R18). -/
def Obligations.EveryStepKeepsTheWriteBackLaw : Prop :=
  (∀ s t : State, s.writeBackLaw → step s = .next t → t.writeBackLaw)
  ∧ (∀ s t : State, s.workListLaw → step s = .next t → t.workListLaw)
  ∧ ∀ s t : State, s.part = .guard → step s = .next t → t.part = .guard → ∀ n,
      (t.station n).effective ≠ (s.station n).effective ∨ (t.station n).authority ≠ (s.station n).authority
          ∨ (t.station n).state ≠ (s.station n).state ∨ (t.station n).tripCause ≠ (s.station n).tripCause →
        (t.station n).writeBackPending = true

/-- The interrupt output is asserted exactly while an enabled class has unread records. -/
def Obligations.EveryStepKeepsTheInterruptLaw : Prop :=
  ∀ s t : State, s.interruptLaw → step s = .next t → t.interruptLaw

/-- The lost counts never exceed 9, at most one requester's is 9 and one requester's is 0, and the base priorities stay
at most 7. -/
def Obligations.EveryStepKeepsTheArbiterFair : Prop :=
  ∀ s t : State, s.arbiter.fair → step s = .next t → t.arbiter.fair

/-- Every law holds right after the reset. -/
def Obligations.LawsHoldAtReset : Prop :=
  core.reset.canonical ∧ core.reset.bounded ∧ core.reset.ringLaw ∧ core.reset.incidentLaw ∧ core.reset.targetLaw
    ∧ core.reset.alarms.law ∧ core.reset.queueLaw ∧ core.reset.orderLaw ∧ core.reset.slotLaw ∧ core.reset.slotBound
    ∧ core.reset.outLaw ∧ core.reset.lifecycleLaw ∧ core.reset.writeBackLaw ∧ core.reset.workListLaw
    ∧ core.reset.interruptLaw ∧ core.reset.arbiter.fair
end

