-- ==== Sys2Proof/Laws/State.lean ====
section
/-! SUPPORT. What each update of the state leaves alone, field by field, and the laws of tables. -/

namespace Sys2Proof

/-! ### Tables -/

theorem Table.nth_eq {α : Type} {n : Nat} (t : Table α n) (i : Fin n) : t.nth i = t[i.val] := rfl

@[simp] theorem Table.nth_put_self {α : Type} {n : Nat} (t : Table α n) (i : Fin n) (x : α) :
    Table.nth (Table.put t i x) i = x := by
  rw [Table.nth_eq]
  exact Vector.getElem_set_self i.isLt

theorem Table.nth_put_ne {α : Type} {n : Nat} (t : Table α n) {i j : Fin n} (x : α) (h : j ≠ i) :
    Table.nth (Table.put t i x) j = t.nth j := by
  rw [Table.nth_eq, Table.nth_eq]
  exact Vector.getElem_set_ne i.isLt j.isLt (fun hh => h (Fin.ext hh.symm))

theorem Table.nth_put {α : Type} {n : Nat} (t : Table α n) (i j : Fin n) (x : α) :
    Table.nth (Table.put t i x) j = if j = i then x else t.nth j := by
  split
  · rename_i h; subst h; simp
  · rename_i h; exact Table.nth_put_ne t x h

@[simp] theorem Table.nth_tabulate {α : Type} {n : Nat} (f : Fin n → α) (i : Fin n) :
    Table.nth (Table.tabulate f) i = f i := by
  rw [Table.nth_eq]
  simp [Table.tabulate]

@[simp] theorem Table.nth_mapAll {α : Type} {n : Nat} (f : α → α) (t : Table α n) (i : Fin n) :
    Table.nth (Table.mapAll f t) i = f (t.nth i) := by
  rw [Table.nth_eq, Table.nth_eq]
  simp [Table.mapAll]

@[simp] theorem Table.nth_replicate {α : Type} {n : Nat} (x : α) (i : Fin n) :
    Table.nth (Vector.replicate n x) i = x := by
  rw [Table.nth_eq]
  simp

end Sys2Proof

namespace Sys2Proof.Machine

open Sys2Proof

/-! ### withPort -/

@[simp] theorem State.withPort_pending (s : State) (p : Port) (x : PortState) : (s.withPort p x).pending = s.pending := rfl
@[simp] theorem State.withPort_turns (s : State) (p : Port) (x : PortState) : (s.withPort p x).turns = s.turns := rfl
@[simp] theorem State.withPort_part (s : State) (p : Port) (x : PortState) : (s.withPort p x).part = s.part := rfl
@[simp] theorem State.withPort_tenths (s : State) (p : Port) (x : PortState) : (s.withPort p x).tenths = s.tenths := rfl
@[simp] theorem State.withPort_mem (s : State) (p : Port) (x : PortState) : (s.withPort p x).mem = s.mem := rfl
@[simp] theorem State.withPort_copy (s : State) (p : Port) (x : PortState) : (s.withPort p x).copy = s.copy := rfl
@[simp] theorem State.withPort_closeCount (s : State) (p : Port) (x : PortState) : (s.withPort p x).closeCount = s.closeCount := rfl
@[simp] theorem State.withPort_reading (s : State) (p : Port) (x : PortState) : (s.withPort p x).reading = s.reading := rfl
@[simp] theorem State.withPort_arbiter (s : State) (p : Port) (x : PortState) : (s.withPort p x).arbiter = s.arbiter := rfl
@[simp] theorem State.withPort_inFlight (s : State) (p : Port) (x : PortState) : (s.withPort p x).inFlight = s.inFlight := rfl
@[simp] theorem State.withPort_args (s : State) (p : Port) (x : PortState) : (s.withPort p x).args = s.args := rfl
@[simp] theorem State.withPort_requestCount (s : State) (p : Port) (x : PortState) : (s.withPort p x).requestCount = s.requestCount := rfl
@[simp] theorem State.withPort_stations (s : State) (p : Port) (x : PortState) : (s.withPort p x).stations = s.stations := rfl
@[simp] theorem State.withPort_feeders (s : State) (p : Port) (x : PortState) : (s.withPort p x).feeders = s.feeders := rfl
@[simp] theorem State.withPort_sources (s : State) (p : Port) (x : PortState) : (s.withPort p x).sources = s.sources := rfl
@[simp] theorem State.withPort_incident (s : State) (p : Port) (x : PortState) : (s.withPort p x).incident = s.incident := rfl
@[simp] theorem State.withPort_view (s : State) (p : Port) (x : PortState) : (s.withPort p x).view = s.view := rfl
@[simp] theorem State.withPort_reports (s : State) (p : Port) (x : PortState) : (s.withPort p x).reports = s.reports := rfl
@[simp] theorem State.withPort_autoRequests (s : State) (p : Port) (x : PortState) : (s.withPort p x).autoRequests = s.autoRequests := rfl
@[simp] theorem State.withPort_answers (s : State) (p : Port) (x : PortState) : (s.withPort p x).answers = s.answers := rfl
@[simp] theorem State.withPort_notices (s : State) (p : Port) (x : PortState) : (s.withPort p x).notices = s.notices := rfl
@[simp] theorem State.withPort_airflow (s : State) (p : Port) (x : PortState) : (s.withPort p x).airflow = s.airflow := rfl
@[simp] theorem State.withPort_alarms (s : State) (p : Port) (x : PortState) : (s.withPort p x).alarms = s.alarms := rfl
@[simp] theorem State.withPort_writer (s : State) (p : Port) (x : PortState) : (s.withPort p x).writer = s.writer := rfl

/-! ### hand -/

@[simp] theorem State.hand_pending (s : State) (l : List ReportRecord) : (s.hand l).pending = s.pending := rfl
@[simp] theorem State.hand_turns (s : State) (l : List ReportRecord) : (s.hand l).turns = s.turns := rfl
@[simp] theorem State.hand_part (s : State) (l : List ReportRecord) : (s.hand l).part = s.part := rfl
@[simp] theorem State.hand_tenths (s : State) (l : List ReportRecord) : (s.hand l).tenths = s.tenths := rfl
@[simp] theorem State.hand_mem (s : State) (l : List ReportRecord) : (s.hand l).mem = s.mem := rfl
@[simp] theorem State.hand_copy (s : State) (l : List ReportRecord) : (s.hand l).copy = s.copy := rfl
@[simp] theorem State.hand_closeCount (s : State) (l : List ReportRecord) : (s.hand l).closeCount = s.closeCount := rfl
@[simp] theorem State.hand_reading (s : State) (l : List ReportRecord) : (s.hand l).reading = s.reading := rfl
@[simp] theorem State.hand_control (s : State) (l : List ReportRecord) : (s.hand l).control = s.control := rfl
@[simp] theorem State.hand_scanner (s : State) (l : List ReportRecord) : (s.hand l).scanner = s.scanner := rfl
@[simp] theorem State.hand_arbiter (s : State) (l : List ReportRecord) : (s.hand l).arbiter = s.arbiter := rfl
@[simp] theorem State.hand_inFlight (s : State) (l : List ReportRecord) : (s.hand l).inFlight = s.inFlight := rfl
@[simp] theorem State.hand_args (s : State) (l : List ReportRecord) : (s.hand l).args = s.args := rfl
@[simp] theorem State.hand_requestCount (s : State) (l : List ReportRecord) : (s.hand l).requestCount = s.requestCount := rfl
@[simp] theorem State.hand_stations (s : State) (l : List ReportRecord) : (s.hand l).stations = s.stations := rfl
@[simp] theorem State.hand_feeders (s : State) (l : List ReportRecord) : (s.hand l).feeders = s.feeders := rfl
@[simp] theorem State.hand_sources (s : State) (l : List ReportRecord) : (s.hand l).sources = s.sources := rfl
@[simp] theorem State.hand_incident (s : State) (l : List ReportRecord) : (s.hand l).incident = s.incident := rfl
@[simp] theorem State.hand_view (s : State) (l : List ReportRecord) : (s.hand l).view = s.view := rfl
@[simp] theorem State.hand_reports (s : State) (l : List ReportRecord) : (s.hand l).reports = s.reports := rfl
@[simp] theorem State.hand_autoRequests (s : State) (l : List ReportRecord) : (s.hand l).autoRequests = s.autoRequests := rfl
@[simp] theorem State.hand_answers (s : State) (l : List ReportRecord) : (s.hand l).answers = s.answers := rfl
@[simp] theorem State.hand_notices (s : State) (l : List ReportRecord) : (s.hand l).notices = s.notices := rfl
@[simp] theorem State.hand_airflow (s : State) (l : List ReportRecord) : (s.hand l).airflow = s.airflow := rfl
@[simp] theorem State.hand_alarms (s : State) (l : List ReportRecord) : (s.hand l).alarms = s.alarms := rfl

/-! ### putStation -/

@[simp] theorem State.putStation_pending (s : State) (n : StationNo) (d : Station) : (s.putStation n d).pending = s.pending := rfl
@[simp] theorem State.putStation_turns (s : State) (n : StationNo) (d : Station) : (s.putStation n d).turns = s.turns := rfl
@[simp] theorem State.putStation_part (s : State) (n : StationNo) (d : Station) : (s.putStation n d).part = s.part := rfl
@[simp] theorem State.putStation_tenths (s : State) (n : StationNo) (d : Station) : (s.putStation n d).tenths = s.tenths := rfl
@[simp] theorem State.putStation_mem (s : State) (n : StationNo) (d : Station) : (s.putStation n d).mem = s.mem := rfl
@[simp] theorem State.putStation_copy (s : State) (n : StationNo) (d : Station) : (s.putStation n d).copy = s.copy := rfl
@[simp] theorem State.putStation_closeCount (s : State) (n : StationNo) (d : Station) : (s.putStation n d).closeCount = s.closeCount := rfl
@[simp] theorem State.putStation_reading (s : State) (n : StationNo) (d : Station) : (s.putStation n d).reading = s.reading := rfl
@[simp] theorem State.putStation_control (s : State) (n : StationNo) (d : Station) : (s.putStation n d).control = s.control := rfl
@[simp] theorem State.putStation_scanner (s : State) (n : StationNo) (d : Station) : (s.putStation n d).scanner = s.scanner := rfl
@[simp] theorem State.putStation_arbiter (s : State) (n : StationNo) (d : Station) : (s.putStation n d).arbiter = s.arbiter := rfl
@[simp] theorem State.putStation_inFlight (s : State) (n : StationNo) (d : Station) : (s.putStation n d).inFlight = s.inFlight := rfl
@[simp] theorem State.putStation_args (s : State) (n : StationNo) (d : Station) : (s.putStation n d).args = s.args := rfl
@[simp] theorem State.putStation_requestCount (s : State) (n : StationNo) (d : Station) : (s.putStation n d).requestCount = s.requestCount := rfl
@[simp] theorem State.putStation_feeders (s : State) (n : StationNo) (d : Station) : (s.putStation n d).feeders = s.feeders := rfl
@[simp] theorem State.putStation_sources (s : State) (n : StationNo) (d : Station) : (s.putStation n d).sources = s.sources := rfl
@[simp] theorem State.putStation_incident (s : State) (n : StationNo) (d : Station) : (s.putStation n d).incident = s.incident := rfl
@[simp] theorem State.putStation_view (s : State) (n : StationNo) (d : Station) : (s.putStation n d).view = s.view := rfl
@[simp] theorem State.putStation_reports (s : State) (n : StationNo) (d : Station) : (s.putStation n d).reports = s.reports := rfl
@[simp] theorem State.putStation_autoRequests (s : State) (n : StationNo) (d : Station) : (s.putStation n d).autoRequests = s.autoRequests := rfl
@[simp] theorem State.putStation_answers (s : State) (n : StationNo) (d : Station) : (s.putStation n d).answers = s.answers := rfl
@[simp] theorem State.putStation_notices (s : State) (n : StationNo) (d : Station) : (s.putStation n d).notices = s.notices := rfl
@[simp] theorem State.putStation_airflow (s : State) (n : StationNo) (d : Station) : (s.putStation n d).airflow = s.airflow := rfl
@[simp] theorem State.putStation_alarms (s : State) (n : StationNo) (d : Station) : (s.putStation n d).alarms = s.alarms := rfl

/-! ### enterState -/

@[simp] theorem State.enterState_pending (s : State) (n : StationNo) (d : Station) : (s.enterState n d).pending = s.pending := rfl
@[simp] theorem State.enterState_turns (s : State) (n : StationNo) (d : Station) : (s.enterState n d).turns = s.turns := rfl
@[simp] theorem State.enterState_part (s : State) (n : StationNo) (d : Station) : (s.enterState n d).part = s.part := rfl
@[simp] theorem State.enterState_tenths (s : State) (n : StationNo) (d : Station) : (s.enterState n d).tenths = s.tenths := rfl
@[simp] theorem State.enterState_mem (s : State) (n : StationNo) (d : Station) : (s.enterState n d).mem = s.mem := rfl
@[simp] theorem State.enterState_copy (s : State) (n : StationNo) (d : Station) : (s.enterState n d).copy = s.copy := rfl
@[simp] theorem State.enterState_closeCount (s : State) (n : StationNo) (d : Station) : (s.enterState n d).closeCount = s.closeCount := rfl
@[simp] theorem State.enterState_reading (s : State) (n : StationNo) (d : Station) : (s.enterState n d).reading = s.reading := rfl
@[simp] theorem State.enterState_control (s : State) (n : StationNo) (d : Station) : (s.enterState n d).control = s.control := rfl
@[simp] theorem State.enterState_scanner (s : State) (n : StationNo) (d : Station) : (s.enterState n d).scanner = s.scanner := rfl
@[simp] theorem State.enterState_arbiter (s : State) (n : StationNo) (d : Station) : (s.enterState n d).arbiter = s.arbiter := rfl
@[simp] theorem State.enterState_inFlight (s : State) (n : StationNo) (d : Station) : (s.enterState n d).inFlight = s.inFlight := rfl
@[simp] theorem State.enterState_args (s : State) (n : StationNo) (d : Station) : (s.enterState n d).args = s.args := rfl
@[simp] theorem State.enterState_requestCount (s : State) (n : StationNo) (d : Station) : (s.enterState n d).requestCount = s.requestCount := rfl
@[simp] theorem State.enterState_feeders (s : State) (n : StationNo) (d : Station) : (s.enterState n d).feeders = s.feeders := rfl
@[simp] theorem State.enterState_sources (s : State) (n : StationNo) (d : Station) : (s.enterState n d).sources = s.sources := rfl
@[simp] theorem State.enterState_incident (s : State) (n : StationNo) (d : Station) : (s.enterState n d).incident = s.incident := rfl
@[simp] theorem State.enterState_view (s : State) (n : StationNo) (d : Station) : (s.enterState n d).view = s.view := rfl
@[simp] theorem State.enterState_reports (s : State) (n : StationNo) (d : Station) : (s.enterState n d).reports = s.reports := rfl
@[simp] theorem State.enterState_autoRequests (s : State) (n : StationNo) (d : Station) : (s.enterState n d).autoRequests = s.autoRequests := rfl
@[simp] theorem State.enterState_answers (s : State) (n : StationNo) (d : Station) : (s.enterState n d).answers = s.answers := rfl
@[simp] theorem State.enterState_notices (s : State) (n : StationNo) (d : Station) : (s.enterState n d).notices = s.notices := rfl
@[simp] theorem State.enterState_airflow (s : State) (n : StationNo) (d : Station) : (s.enterState n d).airflow = s.airflow := rfl
@[simp] theorem State.enterState_alarms (s : State) (n : StationNo) (d : Station) : (s.enterState n d).alarms = s.alarms := rfl

/-! ### moveStation -/

@[simp] theorem State.moveStation_pending (s : State) (n : StationNo) (d : Station) (l : List ReportRecord) : (s.moveStation n d l).pending = s.pending := rfl
@[simp] theorem State.moveStation_turns (s : State) (n : StationNo) (d : Station) (l : List ReportRecord) : (s.moveStation n d l).turns = s.turns := rfl
@[simp] theorem State.moveStation_part (s : State) (n : StationNo) (d : Station) (l : List ReportRecord) : (s.moveStation n d l).part = s.part := rfl
@[simp] theorem State.moveStation_tenths (s : State) (n : StationNo) (d : Station) (l : List ReportRecord) : (s.moveStation n d l).tenths = s.tenths := rfl
@[simp] theorem State.moveStation_mem (s : State) (n : StationNo) (d : Station) (l : List ReportRecord) : (s.moveStation n d l).mem = s.mem := rfl
@[simp] theorem State.moveStation_copy (s : State) (n : StationNo) (d : Station) (l : List ReportRecord) : (s.moveStation n d l).copy = s.copy := rfl
@[simp] theorem State.moveStation_closeCount (s : State) (n : StationNo) (d : Station) (l : List ReportRecord) : (s.moveStation n d l).closeCount = s.closeCount := rfl
@[simp] theorem State.moveStation_reading (s : State) (n : StationNo) (d : Station) (l : List ReportRecord) : (s.moveStation n d l).reading = s.reading := rfl
@[simp] theorem State.moveStation_control (s : State) (n : StationNo) (d : Station) (l : List ReportRecord) : (s.moveStation n d l).control = s.control := rfl
@[simp] theorem State.moveStation_scanner (s : State) (n : StationNo) (d : Station) (l : List ReportRecord) : (s.moveStation n d l).scanner = s.scanner := rfl
@[simp] theorem State.moveStation_arbiter (s : State) (n : StationNo) (d : Station) (l : List ReportRecord) : (s.moveStation n d l).arbiter = s.arbiter := rfl
@[simp] theorem State.moveStation_inFlight (s : State) (n : StationNo) (d : Station) (l : List ReportRecord) : (s.moveStation n d l).inFlight = s.inFlight := rfl
@[simp] theorem State.moveStation_args (s : State) (n : StationNo) (d : Station) (l : List ReportRecord) : (s.moveStation n d l).args = s.args := rfl
@[simp] theorem State.moveStation_requestCount (s : State) (n : StationNo) (d : Station) (l : List ReportRecord) : (s.moveStation n d l).requestCount = s.requestCount := rfl
@[simp] theorem State.moveStation_sources (s : State) (n : StationNo) (d : Station) (l : List ReportRecord) : (s.moveStation n d l).sources = s.sources := rfl
@[simp] theorem State.moveStation_incident (s : State) (n : StationNo) (d : Station) (l : List ReportRecord) : (s.moveStation n d l).incident = s.incident := rfl
@[simp] theorem State.moveStation_view (s : State) (n : StationNo) (d : Station) (l : List ReportRecord) : (s.moveStation n d l).view = s.view := rfl
@[simp] theorem State.moveStation_autoRequests (s : State) (n : StationNo) (d : Station) (l : List ReportRecord) : (s.moveStation n d l).autoRequests = s.autoRequests := rfl
@[simp] theorem State.moveStation_answers (s : State) (n : StationNo) (d : Station) (l : List ReportRecord) : (s.moveStation n d l).answers = s.answers := rfl
@[simp] theorem State.moveStation_notices (s : State) (n : StationNo) (d : Station) (l : List ReportRecord) : (s.moveStation n d l).notices = s.notices := rfl
@[simp] theorem State.moveStation_airflow (s : State) (n : StationNo) (d : Station) (l : List ReportRecord) : (s.moveStation n d l).airflow = s.airflow := rfl
@[simp] theorem State.moveStation_alarms (s : State) (n : StationNo) (d : Station) (l : List ReportRecord) : (s.moveStation n d l).alarms = s.alarms := rfl

/-! ### retarget -/

@[simp] theorem State.retarget_pending (s : State) (n : StationNo) : (s.retarget n).pending = s.pending := rfl
@[simp] theorem State.retarget_turns (s : State) (n : StationNo) : (s.retarget n).turns = s.turns := rfl
@[simp] theorem State.retarget_part (s : State) (n : StationNo) : (s.retarget n).part = s.part := rfl
@[simp] theorem State.retarget_tenths (s : State) (n : StationNo) : (s.retarget n).tenths = s.tenths := rfl
@[simp] theorem State.retarget_mem (s : State) (n : StationNo) : (s.retarget n).mem = s.mem := rfl
@[simp] theorem State.retarget_copy (s : State) (n : StationNo) : (s.retarget n).copy = s.copy := rfl
@[simp] theorem State.retarget_closeCount (s : State) (n : StationNo) : (s.retarget n).closeCount = s.closeCount := rfl
@[simp] theorem State.retarget_reading (s : State) (n : StationNo) : (s.retarget n).reading = s.reading := rfl
@[simp] theorem State.retarget_control (s : State) (n : StationNo) : (s.retarget n).control = s.control := rfl
@[simp] theorem State.retarget_scanner (s : State) (n : StationNo) : (s.retarget n).scanner = s.scanner := rfl
@[simp] theorem State.retarget_arbiter (s : State) (n : StationNo) : (s.retarget n).arbiter = s.arbiter := rfl
@[simp] theorem State.retarget_inFlight (s : State) (n : StationNo) : (s.retarget n).inFlight = s.inFlight := rfl
@[simp] theorem State.retarget_args (s : State) (n : StationNo) : (s.retarget n).args = s.args := rfl
@[simp] theorem State.retarget_requestCount (s : State) (n : StationNo) : (s.retarget n).requestCount = s.requestCount := rfl
@[simp] theorem State.retarget_stations (s : State) (n : StationNo) : (s.retarget n).stations = s.stations := rfl
@[simp] theorem State.retarget_sources (s : State) (n : StationNo) : (s.retarget n).sources = s.sources := rfl
@[simp] theorem State.retarget_incident (s : State) (n : StationNo) : (s.retarget n).incident = s.incident := rfl
@[simp] theorem State.retarget_view (s : State) (n : StationNo) : (s.retarget n).view = s.view := rfl
@[simp] theorem State.retarget_reports (s : State) (n : StationNo) : (s.retarget n).reports = s.reports := rfl
@[simp] theorem State.retarget_autoRequests (s : State) (n : StationNo) : (s.retarget n).autoRequests = s.autoRequests := rfl
@[simp] theorem State.retarget_answers (s : State) (n : StationNo) : (s.retarget n).answers = s.answers := rfl
@[simp] theorem State.retarget_notices (s : State) (n : StationNo) : (s.retarget n).notices = s.notices := rfl
@[simp] theorem State.retarget_airflow (s : State) (n : StationNo) : (s.retarget n).airflow = s.airflow := rfl
@[simp] theorem State.retarget_alarms (s : State) (n : StationNo) : (s.retarget n).alarms = s.alarms := rfl
@[simp] theorem State.retarget_writer (s : State) (n : StationNo) : (s.retarget n).writer = s.writer := rfl

/-! ### putFeeder -/

@[simp] theorem State.putFeeder_pending (s : State) (f : FeederNo) (x : Feeder) : (s.putFeeder f x).pending = s.pending := rfl
@[simp] theorem State.putFeeder_turns (s : State) (f : FeederNo) (x : Feeder) : (s.putFeeder f x).turns = s.turns := rfl
@[simp] theorem State.putFeeder_part (s : State) (f : FeederNo) (x : Feeder) : (s.putFeeder f x).part = s.part := rfl
@[simp] theorem State.putFeeder_tenths (s : State) (f : FeederNo) (x : Feeder) : (s.putFeeder f x).tenths = s.tenths := rfl
@[simp] theorem State.putFeeder_mem (s : State) (f : FeederNo) (x : Feeder) : (s.putFeeder f x).mem = s.mem := rfl
@[simp] theorem State.putFeeder_copy (s : State) (f : FeederNo) (x : Feeder) : (s.putFeeder f x).copy = s.copy := rfl
@[simp] theorem State.putFeeder_closeCount (s : State) (f : FeederNo) (x : Feeder) : (s.putFeeder f x).closeCount = s.closeCount := rfl
@[simp] theorem State.putFeeder_reading (s : State) (f : FeederNo) (x : Feeder) : (s.putFeeder f x).reading = s.reading := rfl
@[simp] theorem State.putFeeder_control (s : State) (f : FeederNo) (x : Feeder) : (s.putFeeder f x).control = s.control := rfl
@[simp] theorem State.putFeeder_scanner (s : State) (f : FeederNo) (x : Feeder) : (s.putFeeder f x).scanner = s.scanner := rfl
@[simp] theorem State.putFeeder_arbiter (s : State) (f : FeederNo) (x : Feeder) : (s.putFeeder f x).arbiter = s.arbiter := rfl
@[simp] theorem State.putFeeder_inFlight (s : State) (f : FeederNo) (x : Feeder) : (s.putFeeder f x).inFlight = s.inFlight := rfl
@[simp] theorem State.putFeeder_args (s : State) (f : FeederNo) (x : Feeder) : (s.putFeeder f x).args = s.args := rfl
@[simp] theorem State.putFeeder_requestCount (s : State) (f : FeederNo) (x : Feeder) : (s.putFeeder f x).requestCount = s.requestCount := rfl
@[simp] theorem State.putFeeder_stations (s : State) (f : FeederNo) (x : Feeder) : (s.putFeeder f x).stations = s.stations := rfl
@[simp] theorem State.putFeeder_sources (s : State) (f : FeederNo) (x : Feeder) : (s.putFeeder f x).sources = s.sources := rfl
@[simp] theorem State.putFeeder_incident (s : State) (f : FeederNo) (x : Feeder) : (s.putFeeder f x).incident = s.incident := rfl
@[simp] theorem State.putFeeder_view (s : State) (f : FeederNo) (x : Feeder) : (s.putFeeder f x).view = s.view := rfl
@[simp] theorem State.putFeeder_reports (s : State) (f : FeederNo) (x : Feeder) : (s.putFeeder f x).reports = s.reports := rfl
@[simp] theorem State.putFeeder_autoRequests (s : State) (f : FeederNo) (x : Feeder) : (s.putFeeder f x).autoRequests = s.autoRequests := rfl
@[simp] theorem State.putFeeder_answers (s : State) (f : FeederNo) (x : Feeder) : (s.putFeeder f x).answers = s.answers := rfl
@[simp] theorem State.putFeeder_notices (s : State) (f : FeederNo) (x : Feeder) : (s.putFeeder f x).notices = s.notices := rfl
@[simp] theorem State.putFeeder_airflow (s : State) (f : FeederNo) (x : Feeder) : (s.putFeeder f x).airflow = s.airflow := rfl
@[simp] theorem State.putFeeder_alarms (s : State) (f : FeederNo) (x : Feeder) : (s.putFeeder f x).alarms = s.alarms := rfl
@[simp] theorem State.putFeeder_writer (s : State) (f : FeederNo) (x : Feeder) : (s.putFeeder f x).writer = s.writer := rfl

/-! ### supplyRestored -/

@[simp] theorem State.supplyRestored_pending (s : State) (f : FeederNo) : (s.supplyRestored f).pending = s.pending := rfl
@[simp] theorem State.supplyRestored_turns (s : State) (f : FeederNo) : (s.supplyRestored f).turns = s.turns := rfl
@[simp] theorem State.supplyRestored_part (s : State) (f : FeederNo) : (s.supplyRestored f).part = s.part := rfl
@[simp] theorem State.supplyRestored_tenths (s : State) (f : FeederNo) : (s.supplyRestored f).tenths = s.tenths := rfl
@[simp] theorem State.supplyRestored_mem (s : State) (f : FeederNo) : (s.supplyRestored f).mem = s.mem := rfl
@[simp] theorem State.supplyRestored_copy (s : State) (f : FeederNo) : (s.supplyRestored f).copy = s.copy := rfl
@[simp] theorem State.supplyRestored_closeCount (s : State) (f : FeederNo) : (s.supplyRestored f).closeCount = s.closeCount := rfl
@[simp] theorem State.supplyRestored_reading (s : State) (f : FeederNo) : (s.supplyRestored f).reading = s.reading := rfl
@[simp] theorem State.supplyRestored_control (s : State) (f : FeederNo) : (s.supplyRestored f).control = s.control := rfl
@[simp] theorem State.supplyRestored_scanner (s : State) (f : FeederNo) : (s.supplyRestored f).scanner = s.scanner := rfl
@[simp] theorem State.supplyRestored_arbiter (s : State) (f : FeederNo) : (s.supplyRestored f).arbiter = s.arbiter := rfl
@[simp] theorem State.supplyRestored_inFlight (s : State) (f : FeederNo) : (s.supplyRestored f).inFlight = s.inFlight := rfl
@[simp] theorem State.supplyRestored_args (s : State) (f : FeederNo) : (s.supplyRestored f).args = s.args := rfl
@[simp] theorem State.supplyRestored_requestCount (s : State) (f : FeederNo) : (s.supplyRestored f).requestCount = s.requestCount := rfl
@[simp] theorem State.supplyRestored_stations (s : State) (f : FeederNo) : (s.supplyRestored f).stations = s.stations := rfl
@[simp] theorem State.supplyRestored_sources (s : State) (f : FeederNo) : (s.supplyRestored f).sources = s.sources := rfl
@[simp] theorem State.supplyRestored_incident (s : State) (f : FeederNo) : (s.supplyRestored f).incident = s.incident := rfl
@[simp] theorem State.supplyRestored_view (s : State) (f : FeederNo) : (s.supplyRestored f).view = s.view := rfl
@[simp] theorem State.supplyRestored_autoRequests (s : State) (f : FeederNo) : (s.supplyRestored f).autoRequests = s.autoRequests := rfl
@[simp] theorem State.supplyRestored_answers (s : State) (f : FeederNo) : (s.supplyRestored f).answers = s.answers := rfl
@[simp] theorem State.supplyRestored_notices (s : State) (f : FeederNo) : (s.supplyRestored f).notices = s.notices := rfl
@[simp] theorem State.supplyRestored_airflow (s : State) (f : FeederNo) : (s.supplyRestored f).airflow = s.airflow := rfl
@[simp] theorem State.supplyRestored_alarms (s : State) (f : FeederNo) : (s.supplyRestored f).alarms = s.alarms := rfl

/-! ### supplyLost -/

@[simp] theorem State.supplyLost_pending (s : State) (f : FeederNo) : (s.supplyLost f).pending = s.pending := rfl
@[simp] theorem State.supplyLost_turns (s : State) (f : FeederNo) : (s.supplyLost f).turns = s.turns := rfl
@[simp] theorem State.supplyLost_part (s : State) (f : FeederNo) : (s.supplyLost f).part = s.part := rfl
@[simp] theorem State.supplyLost_tenths (s : State) (f : FeederNo) : (s.supplyLost f).tenths = s.tenths := rfl
@[simp] theorem State.supplyLost_mem (s : State) (f : FeederNo) : (s.supplyLost f).mem = s.mem := rfl
@[simp] theorem State.supplyLost_copy (s : State) (f : FeederNo) : (s.supplyLost f).copy = s.copy := rfl
@[simp] theorem State.supplyLost_closeCount (s : State) (f : FeederNo) : (s.supplyLost f).closeCount = s.closeCount := rfl
@[simp] theorem State.supplyLost_reading (s : State) (f : FeederNo) : (s.supplyLost f).reading = s.reading := rfl
@[simp] theorem State.supplyLost_control (s : State) (f : FeederNo) : (s.supplyLost f).control = s.control := rfl
@[simp] theorem State.supplyLost_scanner (s : State) (f : FeederNo) : (s.supplyLost f).scanner = s.scanner := rfl
@[simp] theorem State.supplyLost_arbiter (s : State) (f : FeederNo) : (s.supplyLost f).arbiter = s.arbiter := rfl
@[simp] theorem State.supplyLost_inFlight (s : State) (f : FeederNo) : (s.supplyLost f).inFlight = s.inFlight := rfl
@[simp] theorem State.supplyLost_args (s : State) (f : FeederNo) : (s.supplyLost f).args = s.args := rfl
@[simp] theorem State.supplyLost_requestCount (s : State) (f : FeederNo) : (s.supplyLost f).requestCount = s.requestCount := rfl
@[simp] theorem State.supplyLost_stations (s : State) (f : FeederNo) : (s.supplyLost f).stations = s.stations := rfl
@[simp] theorem State.supplyLost_sources (s : State) (f : FeederNo) : (s.supplyLost f).sources = s.sources := rfl
@[simp] theorem State.supplyLost_incident (s : State) (f : FeederNo) : (s.supplyLost f).incident = s.incident := rfl
@[simp] theorem State.supplyLost_view (s : State) (f : FeederNo) : (s.supplyLost f).view = s.view := rfl
@[simp] theorem State.supplyLost_autoRequests (s : State) (f : FeederNo) : (s.supplyLost f).autoRequests = s.autoRequests := rfl
@[simp] theorem State.supplyLost_answers (s : State) (f : FeederNo) : (s.supplyLost f).answers = s.answers := rfl
@[simp] theorem State.supplyLost_notices (s : State) (f : FeederNo) : (s.supplyLost f).notices = s.notices := rfl
@[simp] theorem State.supplyLost_airflow (s : State) (f : FeederNo) : (s.supplyLost f).airflow = s.airflow := rfl
@[simp] theorem State.supplyLost_alarms (s : State) (f : FeederNo) : (s.supplyLost f).alarms = s.alarms := rfl

/-! ### putSource -/

@[simp] theorem State.putSource_pending (s : State) (k : SourceNo) (x : Source) : (s.putSource k x).pending = s.pending := rfl
@[simp] theorem State.putSource_turns (s : State) (k : SourceNo) (x : Source) : (s.putSource k x).turns = s.turns := rfl
@[simp] theorem State.putSource_part (s : State) (k : SourceNo) (x : Source) : (s.putSource k x).part = s.part := rfl
@[simp] theorem State.putSource_tenths (s : State) (k : SourceNo) (x : Source) : (s.putSource k x).tenths = s.tenths := rfl
@[simp] theorem State.putSource_mem (s : State) (k : SourceNo) (x : Source) : (s.putSource k x).mem = s.mem := rfl
@[simp] theorem State.putSource_copy (s : State) (k : SourceNo) (x : Source) : (s.putSource k x).copy = s.copy := rfl
@[simp] theorem State.putSource_closeCount (s : State) (k : SourceNo) (x : Source) : (s.putSource k x).closeCount = s.closeCount := rfl
@[simp] theorem State.putSource_reading (s : State) (k : SourceNo) (x : Source) : (s.putSource k x).reading = s.reading := rfl
@[simp] theorem State.putSource_control (s : State) (k : SourceNo) (x : Source) : (s.putSource k x).control = s.control := rfl
@[simp] theorem State.putSource_scanner (s : State) (k : SourceNo) (x : Source) : (s.putSource k x).scanner = s.scanner := rfl
@[simp] theorem State.putSource_arbiter (s : State) (k : SourceNo) (x : Source) : (s.putSource k x).arbiter = s.arbiter := rfl
@[simp] theorem State.putSource_inFlight (s : State) (k : SourceNo) (x : Source) : (s.putSource k x).inFlight = s.inFlight := rfl
@[simp] theorem State.putSource_args (s : State) (k : SourceNo) (x : Source) : (s.putSource k x).args = s.args := rfl
@[simp] theorem State.putSource_requestCount (s : State) (k : SourceNo) (x : Source) : (s.putSource k x).requestCount = s.requestCount := rfl
@[simp] theorem State.putSource_stations (s : State) (k : SourceNo) (x : Source) : (s.putSource k x).stations = s.stations := rfl
@[simp] theorem State.putSource_feeders (s : State) (k : SourceNo) (x : Source) : (s.putSource k x).feeders = s.feeders := rfl
@[simp] theorem State.putSource_incident (s : State) (k : SourceNo) (x : Source) : (s.putSource k x).incident = s.incident := rfl
@[simp] theorem State.putSource_view (s : State) (k : SourceNo) (x : Source) : (s.putSource k x).view = s.view := rfl
@[simp] theorem State.putSource_reports (s : State) (k : SourceNo) (x : Source) : (s.putSource k x).reports = s.reports := rfl
@[simp] theorem State.putSource_autoRequests (s : State) (k : SourceNo) (x : Source) : (s.putSource k x).autoRequests = s.autoRequests := rfl
@[simp] theorem State.putSource_answers (s : State) (k : SourceNo) (x : Source) : (s.putSource k x).answers = s.answers := rfl
@[simp] theorem State.putSource_notices (s : State) (k : SourceNo) (x : Source) : (s.putSource k x).notices = s.notices := rfl
@[simp] theorem State.putSource_airflow (s : State) (k : SourceNo) (x : Source) : (s.putSource k x).airflow = s.airflow := rfl
@[simp] theorem State.putSource_alarms (s : State) (k : SourceNo) (x : Source) : (s.putSource k x).alarms = s.alarms := rfl
@[simp] theorem State.putSource_writer (s : State) (k : SourceNo) (x : Source) : (s.putSource k x).writer = s.writer := rfl

/-! ### imageWrite -/

@[simp] theorem State.imageWrite_pending (s : State) (a : Nat) (d : Word) (o : Owner) : (s.imageWrite a d o).pending = s.pending := rfl
@[simp] theorem State.imageWrite_turns (s : State) (a : Nat) (d : Word) (o : Owner) : (s.imageWrite a d o).turns = s.turns := rfl
@[simp] theorem State.imageWrite_part (s : State) (a : Nat) (d : Word) (o : Owner) : (s.imageWrite a d o).part = s.part := rfl
@[simp] theorem State.imageWrite_tenths (s : State) (a : Nat) (d : Word) (o : Owner) : (s.imageWrite a d o).tenths = s.tenths := rfl
@[simp] theorem State.imageWrite_mem (s : State) (a : Nat) (d : Word) (o : Owner) : (s.imageWrite a d o).mem = s.mem := rfl
@[simp] theorem State.imageWrite_copy (s : State) (a : Nat) (d : Word) (o : Owner) : (s.imageWrite a d o).copy = s.copy := rfl
@[simp] theorem State.imageWrite_closeCount (s : State) (a : Nat) (d : Word) (o : Owner) : (s.imageWrite a d o).closeCount = s.closeCount := rfl
@[simp] theorem State.imageWrite_reading (s : State) (a : Nat) (d : Word) (o : Owner) : (s.imageWrite a d o).reading = s.reading := rfl
@[simp] theorem State.imageWrite_control (s : State) (a : Nat) (d : Word) (o : Owner) : (s.imageWrite a d o).control = s.control := rfl
@[simp] theorem State.imageWrite_scanner (s : State) (a : Nat) (d : Word) (o : Owner) : (s.imageWrite a d o).scanner = s.scanner := rfl
@[simp] theorem State.imageWrite_arbiter (s : State) (a : Nat) (d : Word) (o : Owner) : (s.imageWrite a d o).arbiter = s.arbiter := rfl
@[simp] theorem State.imageWrite_args (s : State) (a : Nat) (d : Word) (o : Owner) : (s.imageWrite a d o).args = s.args := rfl
@[simp] theorem State.imageWrite_requestCount (s : State) (a : Nat) (d : Word) (o : Owner) : (s.imageWrite a d o).requestCount = s.requestCount := rfl
@[simp] theorem State.imageWrite_stations (s : State) (a : Nat) (d : Word) (o : Owner) : (s.imageWrite a d o).stations = s.stations := rfl
@[simp] theorem State.imageWrite_feeders (s : State) (a : Nat) (d : Word) (o : Owner) : (s.imageWrite a d o).feeders = s.feeders := rfl
@[simp] theorem State.imageWrite_sources (s : State) (a : Nat) (d : Word) (o : Owner) : (s.imageWrite a d o).sources = s.sources := rfl
@[simp] theorem State.imageWrite_incident (s : State) (a : Nat) (d : Word) (o : Owner) : (s.imageWrite a d o).incident = s.incident := rfl
@[simp] theorem State.imageWrite_view (s : State) (a : Nat) (d : Word) (o : Owner) : (s.imageWrite a d o).view = s.view := rfl
@[simp] theorem State.imageWrite_reports (s : State) (a : Nat) (d : Word) (o : Owner) : (s.imageWrite a d o).reports = s.reports := rfl
@[simp] theorem State.imageWrite_autoRequests (s : State) (a : Nat) (d : Word) (o : Owner) : (s.imageWrite a d o).autoRequests = s.autoRequests := rfl
@[simp] theorem State.imageWrite_answers (s : State) (a : Nat) (d : Word) (o : Owner) : (s.imageWrite a d o).answers = s.answers := rfl
@[simp] theorem State.imageWrite_notices (s : State) (a : Nat) (d : Word) (o : Owner) : (s.imageWrite a d o).notices = s.notices := rfl
@[simp] theorem State.imageWrite_airflow (s : State) (a : Nat) (d : Word) (o : Owner) : (s.imageWrite a d o).airflow = s.airflow := rfl
@[simp] theorem State.imageWrite_alarms (s : State) (a : Nat) (d : Word) (o : Owner) : (s.imageWrite a d o).alarms = s.alarms := rfl
@[simp] theorem State.imageWrite_writer (s : State) (a : Nat) (d : Word) (o : Owner) : (s.imageWrite a d o).writer = s.writer := rfl

/-! ### imageAdvance -/

@[simp] theorem State.imageAdvance_pending (s : State) : s.imageAdvance.pending = s.pending := rfl
@[simp] theorem State.imageAdvance_turns (s : State) : s.imageAdvance.turns = s.turns := rfl
@[simp] theorem State.imageAdvance_part (s : State) : s.imageAdvance.part = s.part := rfl
@[simp] theorem State.imageAdvance_tenths (s : State) : s.imageAdvance.tenths = s.tenths := rfl
@[simp] theorem State.imageAdvance_mem (s : State) : s.imageAdvance.mem = s.mem := rfl
@[simp] theorem State.imageAdvance_copy (s : State) : s.imageAdvance.copy = s.copy := rfl
@[simp] theorem State.imageAdvance_closeCount (s : State) : s.imageAdvance.closeCount = s.closeCount := rfl
@[simp] theorem State.imageAdvance_reading (s : State) : s.imageAdvance.reading = s.reading := rfl
@[simp] theorem State.imageAdvance_control (s : State) : s.imageAdvance.control = s.control := rfl
@[simp] theorem State.imageAdvance_scanner (s : State) : s.imageAdvance.scanner = s.scanner := rfl
@[simp] theorem State.imageAdvance_arbiter (s : State) : s.imageAdvance.arbiter = s.arbiter := rfl
@[simp] theorem State.imageAdvance_inFlight (s : State) : s.imageAdvance.inFlight = s.inFlight := rfl
@[simp] theorem State.imageAdvance_args (s : State) : s.imageAdvance.args = s.args := rfl
@[simp] theorem State.imageAdvance_requestCount (s : State) : s.imageAdvance.requestCount = s.requestCount := rfl
@[simp] theorem State.imageAdvance_stations (s : State) : s.imageAdvance.stations = s.stations := rfl
@[simp] theorem State.imageAdvance_feeders (s : State) : s.imageAdvance.feeders = s.feeders := rfl
@[simp] theorem State.imageAdvance_sources (s : State) : s.imageAdvance.sources = s.sources := rfl
@[simp] theorem State.imageAdvance_incident (s : State) : s.imageAdvance.incident = s.incident := rfl
@[simp] theorem State.imageAdvance_view (s : State) : s.imageAdvance.view = s.view := rfl
@[simp] theorem State.imageAdvance_reports (s : State) : s.imageAdvance.reports = s.reports := rfl
@[simp] theorem State.imageAdvance_autoRequests (s : State) : s.imageAdvance.autoRequests = s.autoRequests := rfl
@[simp] theorem State.imageAdvance_answers (s : State) : s.imageAdvance.answers = s.answers := rfl
@[simp] theorem State.imageAdvance_notices (s : State) : s.imageAdvance.notices = s.notices := rfl
@[simp] theorem State.imageAdvance_airflow (s : State) : s.imageAdvance.airflow = s.airflow := rfl
@[simp] theorem State.imageAdvance_alarms (s : State) : s.imageAdvance.alarms = s.alarms := rfl

/-! ### imageLeave -/

@[simp] theorem State.imageLeave_pending (s : State) : s.imageLeave.pending = s.pending := rfl
@[simp] theorem State.imageLeave_turns (s : State) : s.imageLeave.turns = s.turns := rfl
@[simp] theorem State.imageLeave_part (s : State) : s.imageLeave.part = s.part := rfl
@[simp] theorem State.imageLeave_tenths (s : State) : s.imageLeave.tenths = s.tenths := rfl
@[simp] theorem State.imageLeave_mem (s : State) : s.imageLeave.mem = s.mem := rfl
@[simp] theorem State.imageLeave_copy (s : State) : s.imageLeave.copy = s.copy := rfl
@[simp] theorem State.imageLeave_closeCount (s : State) : s.imageLeave.closeCount = s.closeCount := rfl
@[simp] theorem State.imageLeave_reading (s : State) : s.imageLeave.reading = s.reading := rfl
@[simp] theorem State.imageLeave_control (s : State) : s.imageLeave.control = s.control := rfl
@[simp] theorem State.imageLeave_scanner (s : State) : s.imageLeave.scanner = s.scanner := rfl
@[simp] theorem State.imageLeave_arbiter (s : State) : s.imageLeave.arbiter = s.arbiter := rfl
@[simp] theorem State.imageLeave_inFlight (s : State) : s.imageLeave.inFlight = s.inFlight := rfl
@[simp] theorem State.imageLeave_args (s : State) : s.imageLeave.args = s.args := rfl
@[simp] theorem State.imageLeave_requestCount (s : State) : s.imageLeave.requestCount = s.requestCount := rfl
@[simp] theorem State.imageLeave_stations (s : State) : s.imageLeave.stations = s.stations := rfl
@[simp] theorem State.imageLeave_feeders (s : State) : s.imageLeave.feeders = s.feeders := rfl
@[simp] theorem State.imageLeave_sources (s : State) : s.imageLeave.sources = s.sources := rfl
@[simp] theorem State.imageLeave_incident (s : State) : s.imageLeave.incident = s.incident := rfl
@[simp] theorem State.imageLeave_view (s : State) : s.imageLeave.view = s.view := rfl
@[simp] theorem State.imageLeave_reports (s : State) : s.imageLeave.reports = s.reports := rfl
@[simp] theorem State.imageLeave_autoRequests (s : State) : s.imageLeave.autoRequests = s.autoRequests := rfl
@[simp] theorem State.imageLeave_answers (s : State) : s.imageLeave.answers = s.answers := rfl
@[simp] theorem State.imageLeave_notices (s : State) : s.imageLeave.notices = s.notices := rfl
@[simp] theorem State.imageLeave_airflow (s : State) : s.imageLeave.airflow = s.airflow := rfl
@[simp] theorem State.imageLeave_alarms (s : State) : s.imageLeave.alarms = s.alarms := rfl

/-! ### returnRead -/

@[simp] theorem State.returnRead_pending (s : State) (p : Port) (w : Word) : (s.returnRead p w).pending = s.pending := rfl
@[simp] theorem State.returnRead_turns (s : State) (p : Port) (w : Word) : (s.returnRead p w).turns = s.turns := rfl
@[simp] theorem State.returnRead_part (s : State) (p : Port) (w : Word) : (s.returnRead p w).part = s.part := rfl
@[simp] theorem State.returnRead_tenths (s : State) (p : Port) (w : Word) : (s.returnRead p w).tenths = s.tenths := rfl
@[simp] theorem State.returnRead_mem (s : State) (p : Port) (w : Word) : (s.returnRead p w).mem = s.mem := rfl
@[simp] theorem State.returnRead_copy (s : State) (p : Port) (w : Word) : (s.returnRead p w).copy = s.copy := rfl
@[simp] theorem State.returnRead_closeCount (s : State) (p : Port) (w : Word) : (s.returnRead p w).closeCount = s.closeCount := rfl
@[simp] theorem State.returnRead_reading (s : State) (p : Port) (w : Word) : (s.returnRead p w).reading = s.reading := rfl
@[simp] theorem State.returnRead_arbiter (s : State) (p : Port) (w : Word) : (s.returnRead p w).arbiter = s.arbiter := rfl
@[simp] theorem State.returnRead_inFlight (s : State) (p : Port) (w : Word) : (s.returnRead p w).inFlight = s.inFlight := rfl
@[simp] theorem State.returnRead_args (s : State) (p : Port) (w : Word) : (s.returnRead p w).args = s.args := rfl
@[simp] theorem State.returnRead_requestCount (s : State) (p : Port) (w : Word) : (s.returnRead p w).requestCount = s.requestCount := rfl
@[simp] theorem State.returnRead_stations (s : State) (p : Port) (w : Word) : (s.returnRead p w).stations = s.stations := rfl
@[simp] theorem State.returnRead_feeders (s : State) (p : Port) (w : Word) : (s.returnRead p w).feeders = s.feeders := rfl
@[simp] theorem State.returnRead_sources (s : State) (p : Port) (w : Word) : (s.returnRead p w).sources = s.sources := rfl
@[simp] theorem State.returnRead_incident (s : State) (p : Port) (w : Word) : (s.returnRead p w).incident = s.incident := rfl
@[simp] theorem State.returnRead_view (s : State) (p : Port) (w : Word) : (s.returnRead p w).view = s.view := rfl
@[simp] theorem State.returnRead_reports (s : State) (p : Port) (w : Word) : (s.returnRead p w).reports = s.reports := rfl
@[simp] theorem State.returnRead_autoRequests (s : State) (p : Port) (w : Word) : (s.returnRead p w).autoRequests = s.autoRequests := rfl
@[simp] theorem State.returnRead_answers (s : State) (p : Port) (w : Word) : (s.returnRead p w).answers = s.answers := rfl
@[simp] theorem State.returnRead_notices (s : State) (p : Port) (w : Word) : (s.returnRead p w).notices = s.notices := rfl
@[simp] theorem State.returnRead_airflow (s : State) (p : Port) (w : Word) : (s.returnRead p w).airflow = s.airflow := rfl
@[simp] theorem State.returnRead_alarms (s : State) (p : Port) (w : Word) : (s.returnRead p w).alarms = s.alarms := rfl
@[simp] theorem State.returnRead_writer (s : State) (p : Port) (w : Word) : (s.returnRead p w).writer = s.writer := rfl

/-! ### reply -/

@[simp] theorem State.reply_pending (s : State) (k : Nat) (a : Answer) : (s.reply k a).pending = s.pending := rfl
@[simp] theorem State.reply_turns (s : State) (k : Nat) (a : Answer) : (s.reply k a).turns = s.turns := rfl
@[simp] theorem State.reply_part (s : State) (k : Nat) (a : Answer) : (s.reply k a).part = s.part := rfl
@[simp] theorem State.reply_tenths (s : State) (k : Nat) (a : Answer) : (s.reply k a).tenths = s.tenths := rfl
@[simp] theorem State.reply_mem (s : State) (k : Nat) (a : Answer) : (s.reply k a).mem = s.mem := rfl
@[simp] theorem State.reply_copy (s : State) (k : Nat) (a : Answer) : (s.reply k a).copy = s.copy := rfl
@[simp] theorem State.reply_closeCount (s : State) (k : Nat) (a : Answer) : (s.reply k a).closeCount = s.closeCount := rfl
@[simp] theorem State.reply_reading (s : State) (k : Nat) (a : Answer) : (s.reply k a).reading = s.reading := rfl
@[simp] theorem State.reply_control (s : State) (k : Nat) (a : Answer) : (s.reply k a).control = s.control := rfl
@[simp] theorem State.reply_scanner (s : State) (k : Nat) (a : Answer) : (s.reply k a).scanner = s.scanner := rfl
@[simp] theorem State.reply_arbiter (s : State) (k : Nat) (a : Answer) : (s.reply k a).arbiter = s.arbiter := rfl
@[simp] theorem State.reply_inFlight (s : State) (k : Nat) (a : Answer) : (s.reply k a).inFlight = s.inFlight := rfl
@[simp] theorem State.reply_args (s : State) (k : Nat) (a : Answer) : (s.reply k a).args = s.args := rfl
@[simp] theorem State.reply_stations (s : State) (k : Nat) (a : Answer) : (s.reply k a).stations = s.stations := rfl
@[simp] theorem State.reply_feeders (s : State) (k : Nat) (a : Answer) : (s.reply k a).feeders = s.feeders := rfl
@[simp] theorem State.reply_sources (s : State) (k : Nat) (a : Answer) : (s.reply k a).sources = s.sources := rfl
@[simp] theorem State.reply_incident (s : State) (k : Nat) (a : Answer) : (s.reply k a).incident = s.incident := rfl
@[simp] theorem State.reply_view (s : State) (k : Nat) (a : Answer) : (s.reply k a).view = s.view := rfl
@[simp] theorem State.reply_reports (s : State) (k : Nat) (a : Answer) : (s.reply k a).reports = s.reports := rfl
@[simp] theorem State.reply_autoRequests (s : State) (k : Nat) (a : Answer) : (s.reply k a).autoRequests = s.autoRequests := rfl
@[simp] theorem State.reply_answers (s : State) (k : Nat) (a : Answer) : (s.reply k a).answers = s.answers := rfl
@[simp] theorem State.reply_notices (s : State) (k : Nat) (a : Answer) : (s.reply k a).notices = s.notices := rfl
@[simp] theorem State.reply_airflow (s : State) (k : Nat) (a : Answer) : (s.reply k a).airflow = s.airflow := rfl
@[simp] theorem State.reply_alarms (s : State) (k : Nat) (a : Answer) : (s.reply k a).alarms = s.alarms := rfl

/-! ### notify -/

@[simp] theorem State.notify_pending (s : State) : s.notify.pending = s.pending := rfl
@[simp] theorem State.notify_turns (s : State) : s.notify.turns = s.turns := rfl
@[simp] theorem State.notify_part (s : State) : s.notify.part = s.part := rfl
@[simp] theorem State.notify_tenths (s : State) : s.notify.tenths = s.tenths := rfl
@[simp] theorem State.notify_mem (s : State) : s.notify.mem = s.mem := rfl
@[simp] theorem State.notify_copy (s : State) : s.notify.copy = s.copy := rfl
@[simp] theorem State.notify_closeCount (s : State) : s.notify.closeCount = s.closeCount := rfl
@[simp] theorem State.notify_reading (s : State) : s.notify.reading = s.reading := rfl
@[simp] theorem State.notify_control (s : State) : s.notify.control = s.control := rfl
@[simp] theorem State.notify_scanner (s : State) : s.notify.scanner = s.scanner := rfl
@[simp] theorem State.notify_arbiter (s : State) : s.notify.arbiter = s.arbiter := rfl
@[simp] theorem State.notify_inFlight (s : State) : s.notify.inFlight = s.inFlight := rfl
@[simp] theorem State.notify_args (s : State) : s.notify.args = s.args := rfl
@[simp] theorem State.notify_requestCount (s : State) : s.notify.requestCount = s.requestCount := rfl
@[simp] theorem State.notify_stations (s : State) : s.notify.stations = s.stations := rfl
@[simp] theorem State.notify_feeders (s : State) : s.notify.feeders = s.feeders := rfl
@[simp] theorem State.notify_sources (s : State) : s.notify.sources = s.sources := rfl
@[simp] theorem State.notify_incident (s : State) : s.notify.incident = s.incident := rfl
@[simp] theorem State.notify_view (s : State) : s.notify.view = s.view := rfl
@[simp] theorem State.notify_reports (s : State) : s.notify.reports = s.reports := rfl
@[simp] theorem State.notify_autoRequests (s : State) : s.notify.autoRequests = s.autoRequests := rfl
@[simp] theorem State.notify_answers (s : State) : s.notify.answers = s.answers := rfl
@[simp] theorem State.notify_airflow (s : State) : s.notify.airflow = s.airflow := rfl
@[simp] theorem State.notify_alarms (s : State) : s.notify.alarms = s.alarms := rfl
@[simp] theorem State.notify_writer (s : State) : s.notify.writer = s.writer := rfl

/-! ### finish -/

@[simp] theorem State.finish_pending (s : State) : s.finish.pending = s.pending := by unfold State.finish; split <;> rfl
@[simp] theorem State.finish_turns (s : State) : s.finish.turns = s.turns := by unfold State.finish; split <;> rfl
@[simp] theorem State.finish_part (s : State) : s.finish.part = s.part := by unfold State.finish; split <;> rfl
@[simp] theorem State.finish_tenths (s : State) : s.finish.tenths = s.tenths := by unfold State.finish; split <;> rfl
@[simp] theorem State.finish_copy (s : State) : s.finish.copy = s.copy := by unfold State.finish; split <;> rfl
@[simp] theorem State.finish_closeCount (s : State) : s.finish.closeCount = s.closeCount := by unfold State.finish; split <;> rfl
@[simp] theorem State.finish_reading (s : State) : s.finish.reading = s.reading := by unfold State.finish; split <;> rfl
@[simp] theorem State.finish_control (s : State) : s.finish.control = s.control := by unfold State.finish; split <;> rfl
@[simp] theorem State.finish_scanner (s : State) : s.finish.scanner = s.scanner := by unfold State.finish; split <;> rfl
@[simp] theorem State.finish_arbiter (s : State) : s.finish.arbiter = s.arbiter := by unfold State.finish; split <;> rfl
@[simp] theorem State.finish_args (s : State) : s.finish.args = s.args := by unfold State.finish; split <;> rfl
@[simp] theorem State.finish_requestCount (s : State) : s.finish.requestCount = s.requestCount := by unfold State.finish; split <;> rfl
@[simp] theorem State.finish_stations (s : State) : s.finish.stations = s.stations := by unfold State.finish; split <;> rfl
@[simp] theorem State.finish_feeders (s : State) : s.finish.feeders = s.feeders := by unfold State.finish; split <;> rfl
@[simp] theorem State.finish_sources (s : State) : s.finish.sources = s.sources := by unfold State.finish; split <;> rfl
@[simp] theorem State.finish_incident (s : State) : s.finish.incident = s.incident := by unfold State.finish; split <;> rfl
@[simp] theorem State.finish_view (s : State) : s.finish.view = s.view := by unfold State.finish; split <;> rfl
@[simp] theorem State.finish_reports (s : State) : s.finish.reports = s.reports := by unfold State.finish; split <;> rfl
@[simp] theorem State.finish_autoRequests (s : State) : s.finish.autoRequests = s.autoRequests := by unfold State.finish; split <;> rfl
@[simp] theorem State.finish_answers (s : State) : s.finish.answers = s.answers := by unfold State.finish; split <;> rfl
@[simp] theorem State.finish_notices (s : State) : s.finish.notices = s.notices := by unfold State.finish; split <;> rfl
@[simp] theorem State.finish_airflow (s : State) : s.finish.airflow = s.airflow := by unfold State.finish; split <;> rfl
@[simp] theorem State.finish_alarms (s : State) : s.finish.alarms = s.alarms := by unfold State.finish; split <;> rfl
@[simp] theorem State.finish_writer (s : State) : s.finish.writer = s.writer := by unfold State.finish; split <;> rfl

/-! ### putAnemometer -/

@[simp] theorem State.putAnemometer_pending (s : State) (n : AnemometerNo) (a : Anemometer) : (s.putAnemometer n a).pending = s.pending := by
  simp only [State.putAnemometer]; split <;> [rfl; (split <;> rfl)]
@[simp] theorem State.putAnemometer_turns (s : State) (n : AnemometerNo) (a : Anemometer) : (s.putAnemometer n a).turns = s.turns := by
  simp only [State.putAnemometer]; split <;> [rfl; (split <;> rfl)]
@[simp] theorem State.putAnemometer_part (s : State) (n : AnemometerNo) (a : Anemometer) : (s.putAnemometer n a).part = s.part := by
  simp only [State.putAnemometer]; split <;> [rfl; (split <;> rfl)]
@[simp] theorem State.putAnemometer_tenths (s : State) (n : AnemometerNo) (a : Anemometer) : (s.putAnemometer n a).tenths = s.tenths := by
  simp only [State.putAnemometer]; split <;> [rfl; (split <;> rfl)]
@[simp] theorem State.putAnemometer_mem (s : State) (n : AnemometerNo) (a : Anemometer) : (s.putAnemometer n a).mem = s.mem := by
  simp only [State.putAnemometer]; split <;> [rfl; (split <;> rfl)]
@[simp] theorem State.putAnemometer_copy (s : State) (n : AnemometerNo) (a : Anemometer) : (s.putAnemometer n a).copy = s.copy := by
  simp only [State.putAnemometer]; split <;> [rfl; (split <;> rfl)]
@[simp] theorem State.putAnemometer_closeCount (s : State) (n : AnemometerNo) (a : Anemometer) : (s.putAnemometer n a).closeCount = s.closeCount := by
  simp only [State.putAnemometer]; split <;> [rfl; (split <;> rfl)]
@[simp] theorem State.putAnemometer_reading (s : State) (n : AnemometerNo) (a : Anemometer) : (s.putAnemometer n a).reading = s.reading := by
  simp only [State.putAnemometer]; split <;> [rfl; (split <;> rfl)]
@[simp] theorem State.putAnemometer_control (s : State) (n : AnemometerNo) (a : Anemometer) : (s.putAnemometer n a).control = s.control := by
  simp only [State.putAnemometer]; split <;> [rfl; (split <;> rfl)]
@[simp] theorem State.putAnemometer_scanner (s : State) (n : AnemometerNo) (a : Anemometer) : (s.putAnemometer n a).scanner = s.scanner := by
  simp only [State.putAnemometer]; split <;> [rfl; (split <;> rfl)]
@[simp] theorem State.putAnemometer_arbiter (s : State) (n : AnemometerNo) (a : Anemometer) : (s.putAnemometer n a).arbiter = s.arbiter := by
  simp only [State.putAnemometer]; split <;> [rfl; (split <;> rfl)]
@[simp] theorem State.putAnemometer_inFlight (s : State) (n : AnemometerNo) (a : Anemometer) : (s.putAnemometer n a).inFlight = s.inFlight := by
  simp only [State.putAnemometer]; split <;> [rfl; (split <;> rfl)]
@[simp] theorem State.putAnemometer_args (s : State) (n : AnemometerNo) (a : Anemometer) : (s.putAnemometer n a).args = s.args := by
  simp only [State.putAnemometer]; split <;> [rfl; (split <;> rfl)]
@[simp] theorem State.putAnemometer_requestCount (s : State) (n : AnemometerNo) (a : Anemometer) : (s.putAnemometer n a).requestCount = s.requestCount := by
  simp only [State.putAnemometer]; split <;> [rfl; (split <;> rfl)]
@[simp] theorem State.putAnemometer_stations (s : State) (n : AnemometerNo) (a : Anemometer) : (s.putAnemometer n a).stations = s.stations := by
  simp only [State.putAnemometer]; split <;> [rfl; (split <;> rfl)]
@[simp] theorem State.putAnemometer_feeders (s : State) (n : AnemometerNo) (a : Anemometer) : (s.putAnemometer n a).feeders = s.feeders := by
  simp only [State.putAnemometer]; split <;> [rfl; (split <;> rfl)]
@[simp] theorem State.putAnemometer_sources (s : State) (n : AnemometerNo) (a : Anemometer) : (s.putAnemometer n a).sources = s.sources := by
  simp only [State.putAnemometer]; split <;> [rfl; (split <;> rfl)]
@[simp] theorem State.putAnemometer_incident (s : State) (n : AnemometerNo) (a : Anemometer) : (s.putAnemometer n a).incident = s.incident := by
  simp only [State.putAnemometer]; split <;> [rfl; (split <;> rfl)]
@[simp] theorem State.putAnemometer_view (s : State) (n : AnemometerNo) (a : Anemometer) : (s.putAnemometer n a).view = s.view := by
  simp only [State.putAnemometer]; split <;> [rfl; (split <;> rfl)]
@[simp] theorem State.putAnemometer_reports (s : State) (n : AnemometerNo) (a : Anemometer) : (s.putAnemometer n a).reports = s.reports := by
  simp only [State.putAnemometer]; split <;> [rfl; (split <;> rfl)]
@[simp] theorem State.putAnemometer_autoRequests (s : State) (n : AnemometerNo) (a : Anemometer) : (s.putAnemometer n a).autoRequests = s.autoRequests := by
  simp only [State.putAnemometer]; split <;> [rfl; (split <;> rfl)]
@[simp] theorem State.putAnemometer_answers (s : State) (n : AnemometerNo) (a : Anemometer) : (s.putAnemometer n a).answers = s.answers := by
  simp only [State.putAnemometer]; split <;> [rfl; (split <;> rfl)]
@[simp] theorem State.putAnemometer_notices (s : State) (n : AnemometerNo) (a : Anemometer) : (s.putAnemometer n a).notices = s.notices := by
  simp only [State.putAnemometer]; split <;> [rfl; (split <;> rfl)]
@[simp] theorem State.putAnemometer_alarms (s : State) (n : AnemometerNo) (a : Anemometer) : (s.putAnemometer n a).alarms = s.alarms := by
  simp only [State.putAnemometer]; split <;> [rfl; (split <;> rfl)]
@[simp] theorem State.putAnemometer_writer (s : State) (n : AnemometerNo) (a : Anemometer) : (s.putAnemometer n a).writer = s.writer := by
  simp only [State.putAnemometer]; split <;> [rfl; (split <;> rfl)]

/-! ### restTurns -/

@[simp] theorem State.restTurns_turns (s : State) : s.restTurns.turns = s.turns.tail := rfl
@[simp] theorem State.restTurns_pending (s : State) : s.restTurns.pending = s.pending := rfl
@[simp] theorem State.restTurns_part (s : State) : s.restTurns.part = s.part := rfl
@[simp] theorem State.restTurns_tenths (s : State) : s.restTurns.tenths = s.tenths := rfl
@[simp] theorem State.restTurns_mem (s : State) : s.restTurns.mem = s.mem := rfl
@[simp] theorem State.restTurns_copy (s : State) : s.restTurns.copy = s.copy := rfl
@[simp] theorem State.restTurns_closeCount (s : State) : s.restTurns.closeCount = s.closeCount := rfl
@[simp] theorem State.restTurns_reading (s : State) : s.restTurns.reading = s.reading := rfl
@[simp] theorem State.restTurns_control (s : State) : s.restTurns.control = s.control := rfl
@[simp] theorem State.restTurns_scanner (s : State) : s.restTurns.scanner = s.scanner := rfl
@[simp] theorem State.restTurns_arbiter (s : State) : s.restTurns.arbiter = s.arbiter := rfl
@[simp] theorem State.restTurns_inFlight (s : State) : s.restTurns.inFlight = s.inFlight := rfl
@[simp] theorem State.restTurns_args (s : State) : s.restTurns.args = s.args := rfl
@[simp] theorem State.restTurns_requestCount (s : State) : s.restTurns.requestCount = s.requestCount := rfl
@[simp] theorem State.restTurns_stations (s : State) : s.restTurns.stations = s.stations := rfl
@[simp] theorem State.restTurns_feeders (s : State) : s.restTurns.feeders = s.feeders := rfl
@[simp] theorem State.restTurns_sources (s : State) : s.restTurns.sources = s.sources := rfl
@[simp] theorem State.restTurns_incident (s : State) : s.restTurns.incident = s.incident := rfl
@[simp] theorem State.restTurns_view (s : State) : s.restTurns.view = s.view := rfl
@[simp] theorem State.restTurns_reports (s : State) : s.restTurns.reports = s.reports := rfl
@[simp] theorem State.restTurns_autoRequests (s : State) : s.restTurns.autoRequests = s.autoRequests := rfl
@[simp] theorem State.restTurns_answers (s : State) : s.restTurns.answers = s.answers := rfl
@[simp] theorem State.restTurns_notices (s : State) : s.restTurns.notices = s.notices := rfl
@[simp] theorem State.restTurns_airflow (s : State) : s.restTurns.airflow = s.airflow := rfl
@[simp] theorem State.restTurns_alarms (s : State) : s.restTurns.alarms = s.alarms := rfl
@[simp] theorem State.restTurns_writer (s : State) : s.restTurns.writer = s.writer := rfl

/-! ### Stations, feeders and sources after an update -/

theorem State.station_putStation_ne (s : State) {n m : StationNo} (d : Station) (h : m ≠ n) :
    (s.putStation n d).station m = s.station m := by
  simp [State.station, State.putStation, Table.nth_put_ne _ _ h]

theorem State.station_putStation_self (s : State) (n : StationNo) (d : Station) :
    (s.putStation n d).station n = if (s.station n).shown = d.shown then d else { d with writeBackPending := true } := by
  simp [State.station, State.putStation]

theorem State.station_moveStation_ne (s : State) {n m : StationNo} (d : Station) (l : List ReportRecord) (h : m ≠ n) :
    (s.moveStation n d l).station m = s.station m := by
  simp [State.station, State.moveStation, State.enterState, State.putStation, Table.nth_put_ne _ _ h]

theorem State.station_moveStation_self (s : State) (n : StationNo) (d : Station) (l : List ReportRecord) :
    (s.moveStation n d l).station n =
      if (s.station n).shown = d.shown then { d with entered := true }
      else { d with entered := true, writeBackPending := true } := by
  simp only [State.station, State.moveStation, State.enterState, State.putStation, Table.nth_put_self]
  rfl

theorem State.feeder_moveStation_self (s : State) (n : StationNo) (d : Station) (l : List ReportRecord) :
    (s.moveStation n d l).feeder (s.feederNo n) = feederAfterMove s n (s.station n) d := by
  simp [State.feeder, State.moveStation]

theorem State.feeder_moveStation_ne (s : State) {n : StationNo} {f : FeederNo} (d : Station) (l : List ReportRecord)
    (h : f ≠ s.feederNo n) : (s.moveStation n d l).feeder f = s.feeder f := by
  simp [State.feeder, State.moveStation, Table.nth_put_ne _ _ h]

/-! ### The fields of a station after its record changed, and after it moved -/

@[simp] theorem State.state_putStation_self (s : State) (n : StationNo) (d : Station) :
    ((s.putStation n d).station n).state = d.state := by
  rw [State.station_putStation_self]
  split <;> rfl

@[simp] theorem State.request_putStation_self (s : State) (n : StationNo) (d : Station) :
    ((s.putStation n d).station n).request = d.request := by
  rw [State.station_putStation_self]
  split <;> rfl

@[simp] theorem State.target_putStation_self (s : State) (n : StationNo) (d : Station) :
    ((s.putStation n d).station n).target = d.target := by
  rw [State.station_putStation_self]
  split <;> rfl

@[simp] theorem State.effective_putStation_self (s : State) (n : StationNo) (d : Station) :
    ((s.putStation n d).station n).effective = d.effective := by
  rw [State.station_putStation_self]
  split <;> rfl

@[simp] theorem State.timer_putStation_self (s : State) (n : StationNo) (d : Station) :
    ((s.putStation n d).station n).timer = d.timer := by
  rw [State.station_putStation_self]
  split <;> rfl

@[simp] theorem State.observed_putStation_self (s : State) (n : StationNo) (d : Station) :
    ((s.putStation n d).station n).observed = d.observed := by
  rw [State.station_putStation_self]
  split <;> rfl

@[simp] theorem State.locks_putStation_self (s : State) (n : StationNo) (d : Station) :
    ((s.putStation n d).station n).locks = d.locks := by
  rw [State.station_putStation_self]
  split <;> rfl

@[simp] theorem State.tripCause_putStation_self (s : State) (n : StationNo) (d : Station) :
    ((s.putStation n d).station n).tripCause = d.tripCause := by
  rw [State.station_putStation_self]
  split <;> rfl

@[simp] theorem State.stopFlag_putStation_self (s : State) (n : StationNo) (d : Station) :
    ((s.putStation n d).station n).stopFlag = d.stopFlag := by
  rw [State.station_putStation_self]
  split <;> rfl

@[simp] theorem State.entered_putStation_self (s : State) (n : StationNo) (d : Station) :
    ((s.putStation n d).station n).entered = d.entered := by
  rw [State.station_putStation_self]
  split <;> rfl

@[simp] theorem State.state_moveStation_self (s : State) (n : StationNo) (d : Station) (l : List ReportRecord) :
    ((s.moveStation n d l).station n).state = d.state := by
  rw [State.station_moveStation_self]
  by_cases h : (s.station n).shown = d.shown
  · rw [if_pos h]
  · rw [if_neg h]

@[simp] theorem State.request_moveStation_self (s : State) (n : StationNo) (d : Station) (l : List ReportRecord) :
    ((s.moveStation n d l).station n).request = d.request := by
  rw [State.station_moveStation_self]
  by_cases h : (s.station n).shown = d.shown
  · rw [if_pos h]
  · rw [if_neg h]

@[simp] theorem State.target_moveStation_self (s : State) (n : StationNo) (d : Station) (l : List ReportRecord) :
    ((s.moveStation n d l).station n).target = d.target := by
  rw [State.station_moveStation_self]
  by_cases h : (s.station n).shown = d.shown
  · rw [if_pos h]
  · rw [if_neg h]

@[simp] theorem State.effective_moveStation_self (s : State) (n : StationNo) (d : Station) (l : List ReportRecord) :
    ((s.moveStation n d l).station n).effective = d.effective := by
  rw [State.station_moveStation_self]
  by_cases h : (s.station n).shown = d.shown
  · rw [if_pos h]
  · rw [if_neg h]

@[simp] theorem State.timer_moveStation_self (s : State) (n : StationNo) (d : Station) (l : List ReportRecord) :
    ((s.moveStation n d l).station n).timer = d.timer := by
  rw [State.station_moveStation_self]
  by_cases h : (s.station n).shown = d.shown
  · rw [if_pos h]
  · rw [if_neg h]

@[simp] theorem State.observed_moveStation_self (s : State) (n : StationNo) (d : Station) (l : List ReportRecord) :
    ((s.moveStation n d l).station n).observed = d.observed := by
  rw [State.station_moveStation_self]
  by_cases h : (s.station n).shown = d.shown
  · rw [if_pos h]
  · rw [if_neg h]

@[simp] theorem State.locks_moveStation_self (s : State) (n : StationNo) (d : Station) (l : List ReportRecord) :
    ((s.moveStation n d l).station n).locks = d.locks := by
  rw [State.station_moveStation_self]
  by_cases h : (s.station n).shown = d.shown
  · rw [if_pos h]
  · rw [if_neg h]

@[simp] theorem State.tripCause_moveStation_self (s : State) (n : StationNo) (d : Station) (l : List ReportRecord) :
    ((s.moveStation n d l).station n).tripCause = d.tripCause := by
  rw [State.station_moveStation_self]
  by_cases h : (s.station n).shown = d.shown
  · rw [if_pos h]
  · rw [if_neg h]

@[simp] theorem State.stopFlag_moveStation_self (s : State) (n : StationNo) (d : Station) (l : List ReportRecord) :
    ((s.moveStation n d l).station n).stopFlag = d.stopFlag := by
  rw [State.station_moveStation_self]
  by_cases h : (s.station n).shown = d.shown
  · rw [if_pos h]
  · rw [if_neg h]

@[simp] theorem State.entered_moveStation_self (s : State) (n : StationNo) (d : Station) (l : List ReportRecord) :
    ((s.moveStation n d l).station n).entered = true := by
  rw [State.station_moveStation_self]
  by_cases h : (s.station n).shown = d.shown
  · rw [if_pos h]
  · rw [if_neg h]

/-- A change of fields that the command word does not show places nothing on the work list. -/
theorem State.putStation_of_shown (s : State) (n : StationNo) (d : Station) (h : (s.station n).shown = d.shown) :
    s.putStation n d = { s with stations := s.stations.put n d } := by
  unfold State.putStation
  rw [if_pos h, if_pos h]

/-- A change of a field that the command word shows sets write-back pending and places the station's entry. -/
theorem State.putStation_of_change (s : State) (n : StationNo) (d : Station) (h : (s.station n).shown ≠ d.shown) :
    s.putStation n d =
      { s with
        stations := s.stations.put n { d with writeBackPending := true }
        writer := s.writer.placeOnce (.station n) } := by
  unfold State.putStation
  rw [if_neg h, if_neg h]

/-! ### Start queues -/

theorem mem_queueInsert (e x : QueueEntry) (q : List QueueEntry) : x ∈ queueInsert e q ↔ x = e ∨ x ∈ q := by
  induction q with
  | nil => simp [queueInsert]
  | cons y rest ih =>
    unfold queueInsert
    split
    · simp
    · rw [List.mem_cons, ih, List.mem_cons]
      exact or_left_comm

theorem mem_queueRemove (n : StationNo) (x : QueueEntry) (q : List QueueEntry) :
    x ∈ queueRemove n q ↔ x ∈ q ∧ x.station ≠ n := by
  simp [queueRemove]

end Sys2Proof.Machine
end

