-- ==== Sys2Proof/Laws/Stations.lean ====
section
/-! SUPPORT. What the claims on stations can change: one lemma for each shared operation. -/

namespace Sys2Proof.Machine

open Sys2Proof

/-! ### The image writer takes records and entries -/

theorem ImageWriter.took_refl (w : ImageWriter) : w.took w := rfl

theorem ImageWriter.took_trans {w w' w'' : ImageWriter} (h : w.took w') (h' : w'.took w'') : w.took w'' := by
  unfold ImageWriter.took at *
  rw [h', h]

theorem ImageWriter.took_append (w : ImageWriter) (e : WorkEntry) : w.took (w.append e) := rfl

theorem ImageWriter.took_placeOnce (w : ImageWriter) (e : WorkEntry) : w.took (w.placeOnce e) := rfl

theorem ImageWriter.took_countDrop (w : ImageWriter) : w.took w.countDrop := rfl

theorem ImageWriter.took_hand (w : ImageWriter) (r : ReportRecord) : w.took (w.hand r) := by
  unfold ImageWriter.hand
  split <;> rfl

theorem ImageWriter.took_handAll (w : ImageWriter) (l : List ReportRecord) : w.took (w.handAll l) := by
  unfold ImageWriter.handAll
  induction l generalizing w with
  | nil => exact ImageWriter.took_refl w
  | cons r rest ih => exact ImageWriter.took_trans (w.took_hand r) (ih (w.hand r))

/-! ### Claims on stations -/

theorem State.stationsOnly_refl (s : State) : s.stationsOnly s := ⟨rfl, rfl⟩

theorem State.stationsOnly_trans {s t u : State} (h : s.stationsOnly t) (h' : t.stationsOnly u) : s.stationsOnly u := by
  refine ⟨?_, ImageWriter.took_trans h.2 h'.2⟩
  rw [h'.1, h.1]

theorem State.stationsOnly_hand (s : State) (l : List ReportRecord) : s.stationsOnly (s.hand l) :=
  ⟨rfl, s.writer.took_handAll l⟩

theorem State.stationsOnly_putStation (s : State) (n : StationNo) (d : Station) : s.stationsOnly (s.putStation n d) := by
  refine ⟨rfl, ?_⟩
  simp only [State.putStation]
  split <;> rfl

theorem State.stationsOnly_moveStation (s : State) (n : StationNo) (d : Station) (l : List ReportRecord) :
    s.stationsOnly (s.moveStation n d l) :=
  ⟨rfl, ImageWriter.took_trans (s.stationsOnly_putStation n { d with entered := true }).2
    (ImageWriter.took_handAll _ l)⟩

theorem State.stationsOnly_retarget (s : State) (n : StationNo) : s.stationsOnly (s.retarget n) := ⟨rfl, rfl⟩

theorem State.stationsOnly_runningChange (s : State) (n : StationNo) : s.stationsOnly (s.runningChange n) := by
  unfold State.runningChange
  dsimp only
  repeat' split
  all_goals first
    | exact State.stationsOnly_refl _
    | exact State.stationsOnly_moveStation _ _ _ _
    | exact State.stationsOnly_putStation _ _ _

theorem State.stationsOnly_queuedChange (s : State) (n : StationNo) : s.stationsOnly (s.queuedChange n) := by
  unfold State.queuedChange
  dsimp only
  repeat' split
  all_goals first
    | exact State.stationsOnly_retarget _ _
    | exact State.stationsOnly_moveStation _ _ _ _

theorem State.stationsOnly_lifecycleChange (s : State) (n : StationNo) : s.stationsOnly (s.lifecycleChange n) := by
  unfold State.lifecycleChange
  repeat' split
  all_goals first
    | exact State.stationsOnly_refl _
    | exact State.stationsOnly_moveStation _ _ _ _
    | exact State.stationsOnly_queuedChange _ _
    | exact State.stationsOnly_runningChange _ _

theorem State.stationsOnly_claim (s : State) (n : StationNo) (d : Station) : s.stationsOnly (s.claim n d) := by
  unfold State.claim
  split
  · exact State.stationsOnly_trans (s.stationsOnly_putStation n d) (State.stationsOnly_lifecycleChange _ n)
  · exact s.stationsOnly_putStation n d

theorem State.stationsOnly_setRequest (s : State) (n : StationNo) (c : FanCommand) : s.stationsOnly (s.setRequest n c) :=
  s.stationsOnly_claim n _

theorem State.stationsOnly_setTarget (s : State) (n : StationNo) (t : Option PlanTarget) :
    s.stationsOnly (s.setTarget n t) :=
  s.stationsOnly_claim n _

theorem State.stationsOnly_foldl {β : Type} (f : State → β → State) (hf : ∀ (s : State) (x : β), s.stationsOnly (f s x))
    (l : List β)
    (s : State) : s.stationsOnly (l.foldl f s) := by
  induction l generalizing s with
  | nil => exact s.stationsOnly_refl
  | cons x rest ih => exact State.stationsOnly_trans (hf s x) (ih (f s x))

theorem State.stationsOnly_grant (s : State) (f : FeederNo) : s.stationsOnly (s.grant f) := by
  unfold State.grant
  split
  · exact s.stationsOnly_refl
  · split
    · exact State.stationsOnly_trans (t := s.putFeeder f _) ⟨rfl, rfl⟩ (State.stationsOnly_putStation _ _ _)
    · exact s.stationsOnly_refl

/-- What every claim and every grant keeps, an event that reaches several stations keeps, whatever its turns are. -/
theorem State.takeClaims_keeps (claim : State → StationNo → State) (P : State → Prop)
    (hclaim : ∀ s n, P s → P (claim s n)) (hgrant : ∀ s f, P s → P (s.grant f)) (turns : List Turn)
    (waiting : List StationNo) (begun : Bool) (s : State) (h : P s) : P (State.takeClaims claim turns waiting begun s) := by
  induction turns generalizing waiting begun s with
  | nil =>
    simp only [State.takeClaims]
    induction waiting generalizing s with
    | nil => exact h
    | cons n rest ih => exact ih _ (hclaim s n h)
  | cons x turns ih =>
    cases x with
    | claim n =>
      simp only [State.takeClaims]
      split
      · exact ih _ _ _ (hclaim s n h)
      · exact ih _ _ _ h
    | grant f =>
      simp only [State.takeClaims]
      refine ih _ _ _ ?_
      split
      · exact hgrant s f h
      · exact h

theorem State.stationsOnly_takeClaims (claim : State → StationNo → State)
    (hclaim : ∀ (s : State) (n : StationNo), s.stationsOnly (claim s n)) (turns : List Turn) (waiting : List StationNo)
    (begun : Bool) (s : State) : s.stationsOnly (State.takeClaims claim turns waiting begun s) :=
  State.takeClaims_keeps claim s.stationsOnly (fun t n h => State.stationsOnly_trans h (hclaim t n))
    (fun t f h => State.stationsOnly_trans h (t.stationsOnly_grant f)) turns waiting begun s s.stationsOnly_refl

theorem State.stationsOnly_restTurns (s : State) : s.stationsOnly s.restTurns := ⟨rfl, rfl⟩

theorem State.stationsOnly_presentInTurns (s : State) (turns : List Turn) (t : Targets) :
    s.stationsOnly (s.presentInTurns turns t) :=
  State.stationsOnly_takeClaims _ (fun s n => s.stationsOnly_setTarget n _) turns _ _ s

theorem State.stationsOnly_presentTargets (s : State) (t : Targets) : s.stationsOnly (s.presentTargets t) :=
  State.stationsOnly_trans s.stationsOnly_restTurns (State.stationsOnly_presentInTurns _ _ _)

theorem State.stationsOnly_absorbed (s : State) (n : StationNo) (c : FanCommand) : s.stationsOnly (s.absorbed n c) :=
  State.stationsOnly_trans s.stationsOnly_restTurns
    (State.stationsOnly_takeClaims _ (fun s m => s.stationsOnly_setRequest m c) _ _ _ _)

theorem State.stationsOnly_changeLocks (s : State) (n : StationNo) (k : Nat) (b : Bool) (l : LockSet) :
    s.stationsOnly (s.changeLocks n k b l) := by
  unfold State.changeLocks
  dsimp only
  split
  · exact State.stationsOnly_moveStation _ _ _ _
  · split
    · exact State.stationsOnly_moveStation _ _ _ _
    · exact State.stationsOnly_trans (State.stationsOnly_putStation _ _ _) (State.stationsOnly_hand _ _)

theorem State.stationsOnly_tripStation (s : State) (n : StationNo) (c : TripCause) :
    s.stationsOnly (s.tripStation n c) :=
  State.stationsOnly_moveStation _ _ _ _

theorem State.stationsOnly_dwellStation (s : State) (n : StationNo) (l : List ReportRecord) :
    s.stationsOnly (s.dwellStation n l) :=
  State.stationsOnly_moveStation _ _ _ _

theorem State.stationsOnly_unexpectedStop (s : State) (n : StationNo) : s.stationsOnly (s.unexpectedStop n) := by
  unfold State.unexpectedStop
  split
  · exact s.stationsOnly_tripStation n _
  · exact s.stationsOnly_dwellStation n _

theorem State.stationsOnly_startEnds (s : State) (n : StationNo) : s.stationsOnly (s.startEnds n) := by
  unfold State.startEnds
  dsimp only
  split
  · exact State.stationsOnly_moveStation _ _ _ _
  · exact State.stationsOnly_trans (State.stationsOnly_moveStation _ _ _ _) (State.stationsOnly_runningChange _ _)

theorem State.stationsOnly_judgeDrive (s : State) (n : StationNo) (o : Observed) : s.stationsOnly (s.judgeDrive n o) := by
  unfold State.judgeDrive
  dsimp only
  repeat' split
  all_goals first
    | exact State.stationsOnly_refl _
    | exact State.stationsOnly_unexpectedStop _ _
    | exact State.stationsOnly_dwellStation _ _ _
    | exact State.stationsOnly_startEnds _ _

theorem State.stationsOnly_stationWord (s : State) (n : StationNo) (o : Observed) :
    s.stationsOnly (s.stationWord n o) := by
  have h1 := s.stationsOnly_putStation n { s.station n with observed := some o }
  have h2 : s.stationsOnly
      (if (s.station n).locks.localSwitch = o.localSwitch then s.putStation n { s.station n with observed := some o }
        else (s.putStation n { s.station n with observed := some o }).changeLocks n 1 o.localSwitch
          { (s.station n).locks with localSwitch := o.localSwitch }) := by
    split
    · exact h1
    · exact State.stationsOnly_trans h1 (State.stationsOnly_changeLocks _ _ _ _ _)
  unfold State.stationWord
  dsimp only
  split
  · exact h2
  · split
    · split
      · exact h2
      · exact State.stationsOnly_trans h2 (State.stationsOnly_tripStation _ _ _)
    · exact State.stationsOnly_trans h2 (State.stationsOnly_judgeDrive _ _ _)

theorem State.stationsOnly_confirm (s : State) (n : StationNo) : s.stationsOnly (s.confirm n) := by
  unfold State.confirm
  dsimp only
  repeat' split
  all_goals first
    | exact State.stationsOnly_refl _
    | exact State.stationsOnly_putStation _ _ _

theorem State.stationsOnly_supplyReport (s : State) (f : FeederNo) (b : Bool) : s.stationsOnly (s.supplyReport f b) := by
  have hr : s.stationsOnly (s.supplyRestored f) := ⟨rfl, s.writer.took_hand _⟩
  have hl : s.stationsOnly (s.supplyLost f) := ⟨rfl, s.writer.took_hand _⟩
  unfold State.supplyReport
  repeat' split
  all_goals first
    | exact State.stationsOnly_refl _
    | exact hr
    | exact hl

theorem State.stationsOnly_seekSpare (s : State) (o : StationNo) : s.stationsOnly (s.seekSpare o) :=
  State.stationsOnly_trans (s.stationsOnly_hand _) (State.stationsOnly_presentInTurns _ _ _)

/-! ### Targets: a claim on one station sets only that station's target -/

theorem State.target_moveStation (s : State) (n m : StationNo) (d : Station) (l : List ReportRecord)
    (h : d.target = (s.station n).target) : ((s.moveStation n d l).station m).target = (s.station m).target := by
  by_cases hm : m = n
  · subst hm
    rw [State.station_moveStation_self]
    split <;> exact h
  · rw [State.station_moveStation_ne s d l hm]

theorem State.target_putStation (s : State) (n m : StationNo) (d : Station) :
    ((s.putStation n d).station m).target = if m = n then d.target else (s.station m).target := by
  by_cases hm : m = n
  · subst hm
    rw [State.station_putStation_self]
    split <;> simp
  · rw [State.station_putStation_ne s d hm]
    simp [hm]

theorem State.target_runningChange (s : State) (n m : StationNo) :
    ((s.runningChange n).station m).target = (s.station m).target := by
  unfold State.runningChange
  dsimp only
  repeat' split
  all_goals first
    | rfl
    | exact State.target_moveStation s n m _ _ rfl
    | skip
  rw [State.target_putStation]
  split
  · rename_i hm; subst hm; rfl
  · rfl

theorem State.target_queuedChange (s : State) (n m : StationNo) :
    ((s.queuedChange n).station m).target = (s.station m).target := by
  unfold State.queuedChange
  dsimp only
  repeat' split
  all_goals first
    | rfl
    | exact State.target_moveStation s n m _ _ rfl

theorem State.target_lifecycleChange (s : State) (n m : StationNo) :
    ((s.lifecycleChange n).station m).target = (s.station m).target := by
  unfold State.lifecycleChange
  repeat' split
  all_goals first
    | rfl
    | exact State.target_moveStation s n m _ _ rfl
    | exact State.target_queuedChange s n m
    | exact State.target_runningChange s n m

theorem State.target_claim (s : State) (n m : StationNo) (d : Station) :
    ((s.claim n d).station m).target = if m = n then d.target else (s.station m).target := by
  unfold State.claim
  split
  · rw [State.target_lifecycleChange, State.target_putStation]
  · rw [State.target_putStation]

theorem State.target_setRequest (s : State) (n m : StationNo) (c : FanCommand) :
    ((s.setRequest n c).station m).target = (s.station m).target := by
  unfold State.setRequest
  rw [State.target_claim]
  split
  · rename_i h; subst h; rfl
  · rfl

theorem State.target_setTarget (s : State) (n m : StationNo) (t : Option PlanTarget) :
    ((s.setTarget n t).station m).target = if m = n then t else (s.station m).target := by
  unfold State.setTarget
  rw [State.target_claim]

theorem State.station_putFeeder (s : State) (f : FeederNo) (fd : Feeder) (m : StationNo) :
    (s.putFeeder f fd).station m = s.station m := rfl

/-- A grant moves at most the station of the head entry, and only to STARTING (R63). -/
theorem State.station_grant (s : State) (f : FeederNo) (m : StationNo) :
    (s.grant f).station m = s.station m
      ∨ ((s.grant f).station m).state = .starting
        ∧ ((s.grant f).station m).target = (s.station m).target
        ∧ ((s.grant f).station m).request = (s.station m).request := by
  unfold State.grant
  split
  · exact Or.inl rfl
  · rename_i e rest _
    split
    · simp only [State.grantEntry, State.enterState]
      by_cases hm : m = e.station
      · refine Or.inr ?_
        subst hm
        rw [State.station_putStation_self]
        split <;> exact ⟨rfl, rfl, rfl⟩
      · exact Or.inl (by rw [State.station_putStation_ne _ _ hm, State.station_putFeeder])
    · exact Or.inl rfl

theorem State.target_grant (s : State) (f : FeederNo) (m : StationNo) :
    ((s.grant f).station m).target = (s.station m).target := by
  rcases s.station_grant f m with h | h
  · rw [h]
  · exact h.2.1

theorem State.request_grant (s : State) (f : FeederNo) (m : StationNo) :
    ((s.grant f).station m).request = (s.station m).request := by
  rcases s.station_grant f m with h | h
  · rw [h]
  · exact h.2.2

/-- A quantity of a station that its own claim sets, that no other claim and no grant changes: after the event it is
set exactly for the stations that waited (R16, R110), whatever the turns are. -/
theorem State.takeClaims_sets {α : Type} (claim : State → StationNo → State) (q : State → α) (v : α) (m : StationNo)
    (hself : ∀ s, q (claim s m) = v) (hother : ∀ s n, n ≠ m → q (claim s n) = q s) (hgrant : ∀ s f, q (s.grant f) = q s)
    (turns : List Turn) (waiting : List StationNo) (begun : Bool) (s : State) :
    (m ∈ waiting → q (State.takeClaims claim turns waiting begun s) = v)
      ∧ (m ∉ waiting → q (State.takeClaims claim turns waiting begun s) = q s) := by
  have fixed : ∀ (s : State) (f : FeederNo) (b : Bool), q (if b then s.grant f else s) = q s := by
    intro s f b
    cases b
    · rfl
    · exact hgrant s f
  induction turns generalizing waiting begun s with
  | nil =>
    simp only [State.takeClaims]
    have keep : ∀ (l : List StationNo) (s : State), q s = v → q (l.foldl claim s) = v := by
      intro l
      induction l with
      | nil => exact fun s h => h
      | cons k rest ih =>
        intro s h
        refine ih _ ?_
        by_cases hk : k = m
        · subst hk; exact hself s
        · rw [hother s k hk]; exact h
    induction waiting generalizing s with
    | nil => simp
    | cons k rest ih =>
      constructor
      · intro h
        rcases List.mem_cons.1 h with rfl | h
        · exact keep rest _ (hself s)
        · exact (ih _).1 h
      · intro h
        rw [List.mem_cons, not_or] at h
        rw [List.foldl_cons, (ih _).2 h.2, hother s k (fun e => h.1 e.symm)]
  | cons x turns ih =>
    cases x with
    | grant f =>
      simp only [State.takeClaims]
      constructor
      · exact fun h => (ih _ _ _).1 h
      · exact fun h => by rw [(ih _ _ _).2 h, fixed]
    | claim k =>
      simp only [State.takeClaims]
      split
      · by_cases hk : k = m
        · subst hk
          constructor
          · exact fun _ => by rw [(ih _ _ _).2 (by simp), hself]
          · intro h; contradiction
        · have hmem : m ∈ waiting.filter (fun x => x != k) ↔ m ∈ waiting := by
            simp [List.mem_filter, Ne.symm hk]
          constructor
          · exact fun h => (ih _ _ _).1 (hmem.2 h)
          · exact fun h => by rw [(ih _ _ _).2 (fun e => h (hmem.1 e)), hother s k hk]
      · exact ih _ _ _

theorem State.mem_targetsDiffer (s : State) (t : Targets) (m : StationNo) :
    m ∈ s.targetsDiffer t ↔ (s.station m).target ≠ t.nth m := by
  simp [State.targetsDiffer, allStations]

theorem State.target_presentInTurns (s : State) (turns : List Turn) (t : Targets) (m : StationNo) :
    ((s.presentInTurns turns t).station m).target = t.nth m := by
  have h := State.takeClaims_sets (fun s n => s.setTarget n (t.nth n)) (fun s => (s.station m).target) (t.nth m) m
    (fun s => by rw [State.target_setTarget]; simp)
    (fun s n hn => by rw [State.target_setTarget, if_neg (fun e => hn e.symm)])
    (fun s f => s.target_grant f m) turns (s.targetsDiffer t) false s
  by_cases hm : m ∈ s.targetsDiffer t
  · exact h.1 hm
  · refine (h.2 hm).trans ?_
    rw [State.mem_targetsDiffer, not_not] at hm
    exact hm

/-- After the targets are presented every station holds its own (R110). -/
theorem State.target_presentTargets (s : State) (t : Targets) (m : StationNo) :
    ((s.presentTargets t).station m).target = t.nth m :=
  State.target_presentInTurns _ _ _ m

/-! ### A claim on one station leaves the others' records alone -/

theorem State.station_runningChange_ne (s : State) {n m : StationNo} (h : m ≠ n) :
    (s.runningChange n).station m = s.station m := by
  unfold State.runningChange
  dsimp only
  repeat' split
  all_goals first
    | rfl
    | exact State.station_moveStation_ne s _ _ h
    | exact State.station_putStation_ne s _ h

theorem State.station_lifecycleChange_ne (s : State) {n m : StationNo} (h : m ≠ n) :
    (s.lifecycleChange n).station m = s.station m := by
  unfold State.lifecycleChange State.queuedChange
  dsimp only
  repeat' split
  all_goals first
    | rfl
    | exact State.station_moveStation_ne s _ _ h
    | exact State.station_runningChange_ne s h

theorem State.station_claim_ne (s : State) {n m : StationNo} (d : Station) (h : m ≠ n) :
    (s.claim n d).station m = s.station m := by
  unfold State.claim
  split
  · rw [State.station_lifecycleChange_ne _ h, State.station_putStation_ne s d h]
  · exact State.station_putStation_ne s d h

theorem State.station_setRequest_ne (s : State) {n m : StationNo} (c : FanCommand) (h : m ≠ n) :
    (s.setRequest n c).station m = s.station m :=
  s.station_claim_ne _ h

theorem State.station_setTarget_ne (s : State) {n m : StationNo} (t : Option PlanTarget) (h : m ≠ n) :
    (s.setTarget n t).station m = s.station m :=
  s.station_claim_ne _ h

theorem State.station_changeLocks_ne (s : State) {n m : StationNo} (k : Nat) (b : Bool) (l : LockSet) (h : m ≠ n) :
    (s.changeLocks n k b l).station m = s.station m := by
  unfold State.changeLocks
  dsimp only
  repeat' split
  all_goals first
    | exact State.station_moveStation_ne s _ _ h
    | exact State.station_putStation_ne s _ h

theorem State.station_judgeDrive_ne (s : State) {n m : StationNo} (o : Observed) (h : m ≠ n) :
    (s.judgeDrive n o).station m = s.station m := by
  unfold State.judgeDrive State.unexpectedStop State.dwellStation State.tripStation State.startEnds
  dsimp only
  repeat' split
  all_goals first
    | rfl
    | exact State.station_moveStation_ne s _ _ h
    | rw [State.station_runningChange_ne _ h, State.station_moveStation_ne s _ _ h]

theorem State.station_stationWord_ne (s : State) {n m : StationNo} (o : Observed) (h : m ≠ n) :
    (s.stationWord n o).station m = s.station m := by
  have h1 : (s.putStation n { s.station n with observed := some o }).station m = s.station m :=
    State.station_putStation_ne s _ h
  unfold State.stationWord
  dsimp only
  repeat' split
  all_goals
    try rw [State.station_judgeDrive_ne _ o h]
    try unfold State.tripStation
    try rw [State.station_moveStation_ne _ _ _ h]
    try rw [State.station_changeLocks_ne _ _ _ _ h]
    exact h1

/-! ### The control request -/

theorem State.request_moveStation (s : State) (n m : StationNo) (d : Station) (l : List ReportRecord)
    (h : d.request = (s.station n).request) : ((s.moveStation n d l).station m).request = (s.station m).request := by
  by_cases hm : m = n
  · subst hm
    rw [State.station_moveStation_self]
    split <;> exact h
  · rw [State.station_moveStation_ne s d l hm]

theorem State.request_putStation (s : State) (n m : StationNo) (d : Station) :
    ((s.putStation n d).station m).request = if m = n then d.request else (s.station m).request := by
  by_cases hm : m = n
  · subst hm
    rw [State.station_putStation_self]
    split <;> simp
  · rw [State.station_putStation_ne s d hm]
    simp [hm]

theorem State.request_lifecycleChange (s : State) (n m : StationNo) :
    ((s.lifecycleChange n).station m).request = (s.station m).request := by
  unfold State.lifecycleChange State.queuedChange State.runningChange
  dsimp only
  repeat' split
  all_goals first
    | rfl
    | exact State.request_moveStation s n m _ _ rfl
    | skip
  rw [State.request_putStation]
  split
  · rename_i hm; subst hm; rfl
  · rfl

theorem State.request_setRequest (s : State) (n m : StationNo) (c : FanCommand) :
    ((s.setRequest n c).station m).request = if m = n then c else (s.station m).request := by
  unfold State.setRequest State.claim
  split
  · rw [State.request_lifecycleChange, State.request_putStation]
  · rw [State.request_putStation]

/-- One write sets the request of every station it addresses and of no other, whatever the turns are (R15, R16). -/
theorem State.request_absorbed (s : State) (n m : StationNo) (c : FanCommand) :
    ((s.absorbed n c).station m).request = if m ∈ s.addressed n then c else (s.station m).request := by
  have h := State.takeClaims_sets (fun s k => s.setRequest k c) (fun s => (s.station m).request) c m
    (fun s => by rw [State.request_setRequest]; simp)
    (fun s k hk => by rw [State.request_setRequest, if_neg (fun e => hk e.symm)])
    (fun s f => s.request_grant f m) s.nextTurns (s.addressed n) false s.restTurns
  split
  · rename_i hm; exact h.1 hm
  · rename_i hm; exact h.2 hm

theorem State.target_absorbed (s : State) (n m : StationNo) (c : FanCommand) :
    ((s.absorbed n c).station m).target = (s.station m).target :=
  State.takeClaims_keeps (fun s k => s.setRequest k c) (fun t => (t.station m).target = (s.station m).target)
    (fun t k h => by rw [State.target_setRequest]; exact h) (fun t f h => by rw [State.target_grant]; exact h) _ _ _ _ rfl

/-- A station a write does not address keeps its record, unless a grant between two claims moves it to STARTING. -/
theorem State.station_absorbed_ne (s : State) (n m : StationNo) (c : FanCommand) (hm : m ∉ s.addressed n) :
    (s.absorbed n c).station m = s.station m ∨ ((s.absorbed n c).station m).state = .starting := by
  have key : ∀ (turns : List Turn) (waiting : List StationNo) (begun : Bool) (t : State), m ∉ waiting →
      (t.station m = s.station m ∨ (t.station m).state = .starting) →
      ((State.takeClaims (fun s k => s.setRequest k c) turns waiting begun t).station m = s.station m
        ∨ ((State.takeClaims (fun s k => s.setRequest k c) turns waiting begun t).station m).state = .starting) := by
    intro turns
    induction turns with
    | nil =>
      intro waiting begun t hw ht
      simp only [State.takeClaims]
      induction waiting generalizing t with
      | nil => exact ht
      | cons k rest ih =>
        rw [List.mem_cons, not_or] at hw
        refine ih _ hw.2 ?_
        rw [State.station_setRequest_ne t c hw.1]
        exact ht
    | cons x turns ih =>
      intro waiting begun t hw ht
      cases x with
      | claim k =>
        simp only [State.takeClaims]
        split
        · rename_i hk
          refine ih _ _ _ (fun e => hw (List.mem_filter.1 e).1) ?_
          rw [State.station_setRequest_ne t c (fun e => hw (by rw [e]; exact hk))]
          exact ht
        · exact ih _ _ _ hw ht
      | grant f =>
        simp only [State.takeClaims]
        refine ih _ _ _ hw ?_
        split
        · rcases t.station_grant f m with h | h
          · rw [h]; exact ht
          · exact Or.inr h.1
        · exact ht
  exact key _ _ _ _ hm (Or.inl rfl)

end Sys2Proof.Machine
end

