-- ==== Sys2Proof/Laws/Incident.lean ====
section
/-! SUPPORT. What the incident controller's shared operations do: the spare search, presenting the targets, and
applying a plan. -/

namespace Sys2Proof.Machine

open Sys2Proof

/-- A search for one original keeps every target there is, and gives at most one station a SPARE target. -/
theorem searchOne_keeps (s : State) (t : Targets) (o m : StationNo) :
    (searchOne s t o).1.nth m = t.nth m
      ∨ (t.nth m = none ∧ ∃ x, (searchOne s t o).1.nth m = some (spareCopy o x)) := by
  unfold searchOne
  split
  · exact Or.inl rfl
  · rename_i x hx
    split
    · rename_i sp hsp
      rw [Table.nth_put]
      by_cases hm : m = sp
      · subst hm
        refine Or.inr ⟨?_, x, if_pos rfl⟩
        unfold spareFor at hsp
        split at hsp
        · cases hsp
        · split at hsp
          · dsimp only at hsp
            split at hsp
            · cases hsp
            · split at hsp
              · rename_i h
                cases hsp
                exact h
              · split at hsp <;> cases hsp
          · cases hsp
      · exact Or.inl (if_neg hm)
    · exact Or.inl rfl

/-- A search keeps every target there is; a station without one gets none or a SPARE target (R112). -/
theorem searchSpares_keeps (s : State) (l : List StationNo) (t : Targets) (m : StationNo) :
    (searchSpares s t l).1.nth m = t.nth m
      ∨ (t.nth m = none ∧ ∃ o x, (searchSpares s t l).1.nth m = some x ∧ x.role = .spare o) := by
  induction l generalizing t with
  | nil => exact Or.inl rfl
  | cons o rest ih =>
    simp only [searchSpares]
    have h1 := searchOne_keeps s t o m
    have h2 := ih (searchOne s t o).1
    rcases h1 with h1 | ⟨h1, x, h1'⟩
    · rw [h1] at h2
      exact h2
    · refine Or.inr ⟨h1, ?_⟩
      rcases h2 with h2 | ⟨h2, _⟩
      · exact ⟨o, _, by rw [h2, h1'], rfl⟩
      · rw [h1'] at h2
        cases h2

theorem standsFor_targetOf (f : Dir) (e : PoolEntry) : standsFor (some (targetOf f e)) = none := by
  unfold targetOf
  split <;> rfl

/-- Presenting, with no turns given, the targets held with one station's replaced changes no other station. -/
theorem State.station_presentOne (s : State) (sp : StationNo) (x : Option PlanTarget) {m : StationNo} (hm : m ≠ sp) :
    (s.presentInTurns [] (s.targets.put sp x)).station m = s.station m := by
  have go : ∀ (l : List StationNo) (s' : State), (∀ k ∈ l, k = sp) → 
      (l.foldl (fun s n => s.setTarget n ((s'.targets.put sp x).nth n)) s).station m = s.station m := by
    intro l s'
    induction l generalizing s with
    | nil => exact fun _ => rfl
    | cons n rest ih =>
      intro h
      rw [List.foldl_cons, ih _ (fun k hk => h k (List.mem_cons_of_mem _ hk)),
        State.station_setTarget_ne _ _ (fun e => hm (e.trans (h n (by simp))))]
  refine go _ s fun k hk => ?_
  rw [State.mem_targetsDiffer] at hk
  by_contra hne
  exact hk (by rw [Table.nth_put_ne _ _ hne]; simp [State.targets])

/-- Applying a plan sets the incident, its view and the airflow monitor; beside these only stations, their queues and
what they report change. -/
theorem State.stationsOnly_applyPlan (s : State) (i : Incident) (r : ReportRecord) :
    ({ s with
        incident := some i
        view := some s.viewNow
        airflow := enterPending s.copy s.airflow i s.tenths } : State).stationsOnly (s.applyPlan i r) := by
  unfold State.applyPlan
  dsimp only
  exact State.stationsOnly_trans ⟨rfl, ImageWriter.took_handAll _ _⟩ (State.stationsOnly_presentTargets _ _)

theorem State.target_applyPlan (s : State) (i : Incident) (r : ReportRecord) (n : StationNo) :
    ((s.applyPlan i r).station n).target =
      (searchSpares s (planTargets s.copy i) (uncoveredOriginals s (planTargets s.copy i))).1.nth n := by
  unfold State.applyPlan
  rw [State.target_presentTargets]

end Sys2Proof.Machine
end

