-- ==== Sys2Proof/Laws/Memory.lean ====
section
/-! SUPPORT. Sparse cells and memory: what a read gives after a write, and the canonical form every write keeps. -/

namespace Sys2Proof.Machine

open Sys2Proof

theorem Cells.read_erase {α : Type} (dflt : α) (c : Cells α) (a b : Nat) :
    Cells.read dflt (Cells.erase c a) b = if b = a then dflt else Cells.read dflt c b := by
  induction c with
  | nil => simp [Cells.erase, Cells.read]
  | cons x rest ih =>
    obtain ⟨k, v⟩ := x
    by_cases hk : k = a
    · subst hk
      rw [Cells.erase, if_pos rfl, ih]
      by_cases hb : b = k
      · simp [hb]
      · simp [hb, Cells.read, Ne.symm hb]
    · rw [Cells.erase, if_neg hk, Cells.read, ih, Cells.read]
      by_cases hb : k = b
      · subst hb; simp [hk]
      · simp [hb]

theorem Cells.read_insert_self {α : Type} (dflt : α) (c : Cells α) (a : Nat) (v : α) (h : ∀ x ∈ c, x.1 ≠ a) :
    Cells.read dflt (Cells.insert c a v) a = v := by
  induction c with
  | nil => simp [Cells.insert, Cells.read]
  | cons x rest ih =>
    obtain ⟨k, w⟩ := x
    have hk : k ≠ a := h (k, w) (by simp)
    rw [Cells.insert]
    split
    · simp [Cells.read]
    · rw [Cells.read, if_neg hk]
      exact ih (fun y hy => h y (by simp [hy]))

theorem Cells.read_insert_ne {α : Type} (dflt : α) (c : Cells α) (a b : Nat) (v : α) (h : b ≠ a) :
    Cells.read dflt (Cells.insert c a v) b = Cells.read dflt c b := by
  induction c with
  | nil => simp [Cells.insert, Cells.read, Ne.symm h]
  | cons x rest ih =>
    obtain ⟨k, w⟩ := x
    rw [Cells.insert]
    split
    · simp [Cells.read, Ne.symm h]
    · rw [Cells.read, Cells.read, ih]

theorem Cells.erase_keys {α : Type} (c : Cells α) (a : Nat) : ∀ x ∈ Cells.erase c a, x.1 ≠ a := by
  induction c with
  | nil => simp [Cells.erase]
  | cons x rest ih =>
    obtain ⟨k, v⟩ := x
    rw [Cells.erase]
    split
    · exact ih
    · rename_i hk
      intro y hy
      rcases List.mem_cons.1 hy with rfl | hy
      · exact hk
      · exact ih y hy

/-- A read after a write gives the value written at its key, and what was there elsewhere. -/
theorem Cells.read_write {α : Type} [DecidableEq α] (dflt : α) (c : Cells α) (a b : Nat) (v : α) :
    Cells.read dflt (Cells.write dflt c a v) b = if b = a then v else Cells.read dflt c b := by
  unfold Cells.write
  by_cases hb : b = a
  · subst hb
    split
    · rename_i hv; simp [Cells.read_erase, hv]
    · simp [Cells.read_insert_self dflt _ b v (Cells.erase_keys c b)]
  · split
    · simp [Cells.read_erase, hb]
    · rw [Cells.read_insert_ne dflt _ a b v hb, Cells.read_erase, if_neg hb]

theorem Cells.wfFrom_mono {α : Type} [DecidableEq α] (dflt : α) {lo lo' : Nat} (c : Cells α)
    (h : Cells.wfFrom dflt lo c = true) (hl : lo' ≤ lo) : Cells.wfFrom dflt lo' c = true := by
  cases c with
  | nil => simp [Cells.wfFrom]
  | cons x rest =>
    obtain ⟨k, v⟩ := x
    simp only [Cells.wfFrom, Bool.and_eq_true, decide_eq_true_eq] at h ⊢
    exact ⟨⟨by omega, h.1.2⟩, h.2⟩

theorem Cells.wfFrom_erase {α : Type} [DecidableEq α] (dflt : α) (c : Cells α) (a : Nat) :
    ∀ lo, Cells.wfFrom dflt lo c = true → Cells.wfFrom dflt lo (Cells.erase c a) = true := by
  induction c with
  | nil => simp [Cells.erase]
  | cons x rest ih =>
    obtain ⟨k, v⟩ := x
    intro lo h
    simp only [Cells.wfFrom, Bool.and_eq_true, decide_eq_true_eq] at h
    rw [Cells.erase]
    split
    · exact Cells.wfFrom_mono dflt _ (ih (k + 1) h.2) (by omega)
    · simp only [Cells.wfFrom, Bool.and_eq_true, decide_eq_true_eq]
      exact ⟨h.1, ih (k + 1) h.2⟩

theorem Cells.wfFrom_insert {α : Type} [DecidableEq α] (dflt : α) (c : Cells α) (a : Nat) (v : α) (hv : v ≠ dflt) :
    ∀ lo, lo ≤ a → (∀ x ∈ c, x.1 ≠ a) → Cells.wfFrom dflt lo c = true →
      Cells.wfFrom dflt lo (Cells.insert c a v) = true := by
  induction c with
  | nil => intro lo hl _ _; simp [Cells.insert, Cells.wfFrom, hl, hv]
  | cons x rest ih =>
    obtain ⟨k, w⟩ := x
    intro lo hl hx h
    simp only [Cells.wfFrom, Bool.and_eq_true, decide_eq_true_eq] at h
    have hk : k ≠ a := hx (k, w) (by simp)
    rw [Cells.insert]
    split
    · rename_i hak
      simp only [Cells.wfFrom, Bool.and_eq_true, decide_eq_true_eq]
      exact ⟨⟨hl, hv⟩, ⟨⟨by omega, h.1.2⟩, h.2⟩⟩
    · simp only [Cells.wfFrom, Bool.and_eq_true, decide_eq_true_eq]
      exact ⟨h.1, ih (k + 1) (by omega) (fun y hy => hx y (by simp [hy])) h.2⟩

/-- A write keeps the canonical form. -/
theorem Cells.wf_write {α : Type} [DecidableEq α] (dflt : α) (c : Cells α) (a : Nat) (v : α)
    (h : Cells.wf dflt c = true) : Cells.wf dflt (Cells.write dflt c a v) = true := by
  unfold Cells.write Cells.wf at *
  have he := Cells.wfFrom_erase dflt c a 0 h
  split
  · exact he
  · rename_i hv
    exact Cells.wfFrom_insert dflt _ a v hv 0 (Nat.zero_le a) (Cells.erase_keys c a) he

theorem Cells.read_nil {α : Type} (dflt : α) (a : Nat) : Cells.read dflt [] a = dflt := rfl

/-! ### Memory -/

theorem Memory.wf_nil : Memory.wf [] = true := rfl

theorem Memory.wf_writeLane (m : Memory) (a : Nat) (d : Word) (e : BitVec 4) (i : Nat) (h : Memory.wf m = true) :
    Memory.wf (m.writeLane a d e i) = true := by
  unfold Memory.writeLane
  split
  · exact Cells.wf_write _ m _ _ h
  · exact h

/-- A word write keeps the canonical form. -/
theorem Memory.wf_writeWord (m : Memory) (a : Nat) (d : Word) (e : BitVec 4) (h : Memory.wf m = true) :
    Memory.wf (m.writeWord a d e) = true :=
  Memory.wf_writeLane _ a d e 3 (Memory.wf_writeLane _ a d e 2 (Memory.wf_writeLane _ a d e 1
    (Memory.wf_writeLane m a d e 0 h)))

theorem Memory.readByte_writeLane (m : Memory) (a : Nat) (d : Word) (e : BitVec 4) (i b : Nat) :
    (m.writeLane a d e i).readByte b =
      if b = a + i ∧ e.getLsbD i = true then d.extractLsb' (8 * i) 8 else m.readByte b := by
  unfold Memory.writeLane Memory.readByte
  by_cases he : e.getLsbD i = true
  · rw [if_pos he, Cells.read_write]
    simp [he]
  · rw [if_neg he]
    simp [he]

/-- A byte after a word write: an enabled lane of the data, or what was there. -/
theorem Memory.readByte_writeWord (m : Memory) (a : Nat) (d : Word) (e : BitVec 4) (b : Nat) :
    (m.writeWord a d e).readByte b =
      if a ≤ b ∧ b < a + 4 ∧ e.getLsbD (b - a) = true then d.extractLsb' (8 * (b - a)) 8 else m.readByte b := by
  unfold Memory.writeWord
  simp only [Memory.readByte_writeLane]
  by_cases h : a ≤ b ∧ b < a + 4
  · obtain ⟨i, hi, rfl⟩ : ∃ i, i < 4 ∧ b = a + i := ⟨b - a, by omega, by omega⟩
    rw [Nat.add_sub_cancel_left]
    have h1 : a ≤ a + i := by omega
    have h2 : a + i < a + 4 := by omega
    have h3 : ∀ j, (a + i = a + j) = (i = j) := fun j => by simp
    simp only [h1, h2, h3, true_and]
    interval_cases i <;> simp
  · have h0 : ∀ j, j < 4 → ¬ b = a + j := by intro j hj; omega
    have hn : ¬(a ≤ b ∧ b < a + 4 ∧ e.getLsbD (b - a) = true) := fun hh => h ⟨hh.1, hh.2.1⟩
    have ha : ¬ b = a := by omega
    rw [if_neg hn]
    simp [h0, ha]

theorem Transfer.wf_applyTo (t : Transfer) (m : Memory) (h : Memory.wf m = true) : Memory.wf (t.applyTo m) = true := by
  cases t with
  | read a => exact h
  | write a d e => exact Memory.wf_writeWord m a d e h

/-- A completion keeps memory canonical. -/
theorem State.wf_finish (s : State) (h : Memory.wf s.mem = true) : Memory.wf s.finish.mem = true := by
  unfold State.finish
  split
  · exact h
  · exact Transfer.wf_applyTo _ _ h

theorem State.reset_mem_wf : Memory.wf State.reset.mem = true := rfl

end Sys2Proof.Machine
end

