-- ==== Sys2Proof/Laws/Commands.lean ====
section
/-! SUPPORT. What the shared parts of the commands do: completions, ports, addresses, requests and replies. -/

namespace Sys2Proof.Machine

open Sys2Proof

/-! ### Completions -/

theorem State.finish_completed (s : State) : Completed s s.finish := by
  unfold Completed State.finish
  cases h : s.inFlight with
  | none => simp [h]
  | some f =>
    obtain ⟨r, t, o⟩ := f
    cases t with
    | read a => simp [Transfer.applyTo]
    | write a d e => simp [Transfer.applyTo, Memory.readByte_writeWord]

theorem State.finish_inFlight (s : State) : s.finish.inFlight = none := s.finish_completed.1

/-- A next state with the memory of the completion and a free port is one in which the access completed. -/
theorem Completed.of_finish {s t : State} (hm : t.mem = s.finish.mem) (hi : t.inFlight = none) : Completed s t := by
  have h := s.finish_completed
  unfold Completed at *
  refine ⟨hi, ?_⟩
  rw [hm]
  exact h.2

theorem State.finish_eq (s : State) : s.finish = { s with mem := s.finish.mem, inFlight := none } := by
  unfold State.finish
  split
  · rename_i h; cases s; simp_all
  · rfl

theorem State.finish_read (s : State) {q : Requester} {a : Nat} {o : Owner}
    (h : s.inFlight = some { requester := q, transfer := .read a, owner := o }) :
    s.finish = { s with inFlight := none } := by
  unfold State.finish
  rw [h]
  rfl

theorem State.flightOwner_of (s : State) {f : Flight} (h : s.inFlight = some f) : s.flightOwner = some f.owner := by
  unfold State.flightOwner
  rw [h]
  rfl

theorem State.flightData_of (s : State) {q : Requester} {a : Nat} {d : Word} {e : BitVec 4} {o : Owner}
    (h : s.inFlight = some { requester := q, transfer := .write a d e, owner := o }) : s.flightData = d := by
  unfold State.flightData
  rw [h]

theorem State.flightWord_of (s : State) {q : Requester} {a : Nat} {o : Owner}
    (h : s.inFlight = some { requester := q, transfer := .read a, owner := o }) : s.flightWord = s.mem.readWord a := by
  unfold State.flightWord
  rw [h]

theorem inGuard_of {s : State} (h : s.part = .guard) (f : State → State) : inGuard s f = f s := by
  simp [inGuard, h]

theorem inGuard_finish_of {s : State} (h : s.part = .guard) (f : State → State) : inGuard s.finish f = f s.finish := by
  simp [inGuard, h]

/-! ### Ports and addresses -/

theorem State.withPort_self (s : State) (p : Port) : s.withPort p (s.port p) = s := by
  cases p <;> rfl

@[simp] theorem State.port_withPort_self (s : State) (p : Port) (x : PortState) : (s.withPort p x).port p = x := by
  cases p <;> rfl

theorem State.port_withPort_ne (s : State) {p q : Port} (x : PortState) (h : q ≠ p) :
    (s.withPort p x).port q = s.port q := by
  cases p <;> cases q <;> first | rfl | exact absurd rfl h

theorem writeAt_eq (w : PortWrite) : writeAt w = w.addr.toNat / 4 * 4 := by
  unfold writeAt wordAddr
  have := w.addr.isLt
  omega

theorem wordAddr_addr (a : Addr) : wordAddr a.toNat = a.toNat / 4 * 4 := by
  unfold wordAddr
  have := a.isLt
  omega

/-! ### Requests and replies -/

theorem State.request_of {s : State} {kind : Nat} (h : s.requestInFlight kind) {ofEvent : Nat → Bool}
    (he : ofEvent kind = true) (take : Nat → State → State) : s.request ofEvent take = take kind s.finish := by
  obtain ⟨h1, h2, h3⟩ := h
  unfold State.request
  rw [h2]
  simp only [h3, he, if_true]
  exact inGuard_finish_of h1 _

/-- A refusal: the access completes, the reply is placed, and nothing else changes. -/
theorem RefusedOnly.of_finish (s : State) (kind : Nat) (r : Reason) :
    RefusedOnly s (answered kind (s.finish, .refused r)) kind r := by
  refine ⟨Completed.of_finish rfl ?_, ?_⟩
  · exact s.finish_inFlight
  · unfold answered State.reply
    dsimp only
    rw [s.finish_eq]

theorem Replied.of_reply {s t : State} {kind : Nat} {a : Answer} (h : t.requestCount = s.requestCount) :
    Replied s (t.reply kind a) kind a := by
  unfold Replied State.reply ImageWriter.append
  rw [h]
  exact ⟨rfl, _, rfl⟩

@[simp] theorem State.arg_finish (s : State) (n : Fin 6) : s.finish.arg n = s.arg n := by
  simp [State.arg]

/-! ### Fields of words -/

theorem flag_eq (w : Word) (i : Nat) : flag w i = w.getLsbD i := by
  simp only [flag, bits, BitVec.getLsbD, Nat.testBit, Nat.shiftRight_eq_div_pow]
  rw [show i + 1 - i = 1 by omega]
  rcases Nat.mod_two_eq_zero_or_one (w.toNat / 2 ^ i) with h | h <;> simp [h, Nat.and_comm 1]

/-- The interrupt condition in terms of the per-class unread counts (R193). -/
theorem interruptLevel_iff (c : Cells Word) (l : List RecordClass) :
    interruptLevel c l = true ↔ ∃ x, Setup.classEnabled c x = true ∧ 0 < l.count x := by
  simp only [interruptLevel, List.any_eq_true, List.count_pos_iff]
  constructor
  · rintro ⟨x, h1, h2⟩
    exact ⟨x, h2, h1⟩
  · rintro ⟨x, h1, h2⟩
    exact ⟨x, h2, h1⟩

/-! ### The close -/

theorem State.closeTaken_of_fault (s : State) {d : Word} {x : SetupCode × Nat}
    (h : Setup.closeFault s.copy d = some x) :
    s.closeTaken d = ({ s with closeCount := countAfter s.closeCount } : State).closeFails x.1 x.2 := by
  unfold State.closeTaken
  rw [h]

theorem State.closeTaken_of_none (s : State) {d : Word} (h : Setup.closeFault s.copy d = none) :
    s.closeTaken d = ({ s with closeCount := countAfter s.closeCount } : State).closeSucceeds := by
  unfold State.closeTaken
  rw [h]

/-! ### The stations that requests name -/

theorem State.namedStation_none (s : State) {k : Nat}
    (h : 64 ≤ k ∨ ∃ n : StationNo, n.val = k ∧ s.present n = false) : s.namedStation k = none := by
  unfold State.namedStation
  rcases h with h | ⟨n, h, h'⟩
  · rw [dif_neg (by omega)]
  · subst h
    rw [dif_pos n.isLt, if_neg]
    simpa using h'

theorem State.namedStation_some (s : State) {k : Nat} {n : StationNo} (h : n.val = k) (h' : s.present n = true) :
    s.namedStation k = some n := by
  unfold State.namedStation
  subst h
  rw [dif_pos n.isLt, if_pos]
  simpa using h'

/-! ### Writes to sources -/

theorem State.sourceWrite_of (s : State) {q : Requester} {a : Nat} {d : Word} {e : BitVec 4} {k : SourceNo}
    (h : s.part = .guard) (hf : s.inFlight = some { requester := q, transfer := .write a d e, owner := .port (.source k) }) :
    s.sourceWrite = s.finish.sourceWritten k d := by
  unfold State.sourceWrite
  rw [s.flightOwner_of hf, s.flightData_of hf]
  exact inGuard_finish_of h _

end Sys2Proof.Machine
end

