-- ==== Sys2Proof/WellFormed.lean ====
section
/-! DEFINITION. Which commands are well formed: the accesses the ports carry are aligned words (00_scope section 2). -/

namespace Sys2Proof

/-- An address is aligned when it lies on a four-byte boundary (00_scope, 5.2). -/
def Addr.aligned (a : Addr) : Bool := a.toNat % 4 == 0

/-- The address of an access. -/
def PortAccess.addr : PortAccess → Addr
  | .write w => w.addr
  | .read a => a

/-- A command is well formed when the access it presents, if any, is an aligned word. Every other operand is in
range by its type. -/
def Instr.wellFormed : Instr → Bool
  | .portWrite _ a => Addr.aligned a.addr
  | .writeHeldAtPort _ a => Addr.aligned a.addr
  | .reset => true
  | .timeStampTick => true
  | .heldWriteAccepted _ => true
  | .writeDisposition _ => true
  | .commandWrite => true
  | .memoryGrant => true
  | .plainWrite => true
  | .sourceWrite => true
  | .argumentWrite => true
  | .declare => true
  | .replan => true
  | .release => true
  | .alarmAck => true
  | .lock => true
  | .tripReset => true
  | .snapshot => true
  | .unknownRequestKind => true
  | .tailWrite => true
  | .recordDue => true
  | .overflow => true
  | .recordHeadCompletion => true
  | .writeBackCompletion => true
  | .snapshotComplete => true
  | .setupWrite => true
  | .close => true
  | .readIn => true
  | .guardEntry => true
  | .grant _ => true
  | .startTimeout _ => true
  | .stopTimeoutExpiry _ => true
  | .dwellExpiry _ => true
  | .spacingExpiry _ => true
  | .restoreExpiry _ => true
  | .ageExpiry _ => true
  | .holdExpiry => true
  | .lossExpiry => true
  | .deadlineExpiry => true
  | .t1Expiry => true
  | .t2Expiry => true
  | .automaticDeclaration => true
  | .declarationAnswer => true
  | .declarationNotice => true
  | .availabilityReport => true

end Sys2Proof
end

