-- ==== Sys2Proof/Tests/Slice0.lean ====
section
/-! SUPPORT. The model's own tests: what the check of well-formed commands refuses, and for every statement with
hypotheses a state and operands that meet them, one for each of its clauses, beside what the command does there. -/

namespace Sys2Proof.Tests

set_option Elab.async false
set_option synthInstance.maxSize 4096
set_option synthInstance.maxHeartbeats 400000

open Sys2Proof Sys2Proof.Machine

/-! ### A small setup and states over it -/

/-- A header with two segments, one feeder, one anemometer, six windows, one plan of two entries, every class
enabled, base priorities 0, 1 and 2, stale times 20, and T1 and T2 of 100. -/
def header : Cells Word :=
  [ (0, 1), (1, 0x06010102), (2, 0x00020001), (3, 0xFF), (4, 0x020100), (5, 0x00140014), (6, 0x00140014),
    (7, 0x00640064) ]

/-- The six windows: COMMAND 1000h, FEEDBACK 2000h, MAILBOX 3000h, REPORT 4000h, SNAPSHOT 5000h, and GUARDED 6000h,
read-only for the control port. -/
def windowTable : Cells Word :=
  [ (16, 0x1000), (17, 256), (18, 1), (20, 0x2000), (21, 512), (22, 2), (24, 0x3000), (25, 64), (26, 3),
    (28, 0x4000), (29, 512), (30, 4), (32, 0x5000), (33, 2048), (34, 5), (36, 0x6000), (37, 64), (38, 0x106) ]

/-- One feeder with one slot, spacing 20 and restore delay 50; anemometer 0 negative; segment 1 with default REV;
plan 1 for both segments and flows. -/
def smallTables : Cells Word :=
  [ (48, 0x00140001), (49, 50), (64, 0x100), (73, 1), (104, 1), (105, 1), (106, 1), (107, 1) ]

/-- Stations 0 (spare 1), 1, and the ganged group of leader 2 with member 3; dwell and timeouts 100. -/
def stationTable : Cells Word :=
  [ (256, 1), (257, 0x10100), (258, 0x00640064), (259, 100), (260, 1), (261, 1), (262, 0x00640064), (263, 100),
    (264, 3), (265, 2), (266, 0x00640064), (267, 100), (268, 1), (269, 2), (270, 0x00640064), (271, 100) ]

/-- Plan 1: station 0 RUN at LOW in tier 1, the group of station 2 RUN at HIGH in tier 2; it watches anemometer 0
for 200 with hold 100 and deadline 600. -/
def planTables : Cells Word :=
  [ (512, 0x00020000), (513, 0x00C80001), (515, 0x02580064), (1024, 0x15), (1025, 0x00020129) ]

/-- The setup as the internal copy holds it. -/
def setup : Cells Word := header ++ windowTable ++ smallTables ++ stationTable ++ planTables

/-- The part in GUARD over the setup. -/
def live : State := { State.reset with part := .guard, copy := setup }

/-- A write of a port or of the image writer is at the memory port. -/
def flying (s : State) (a : Nat) (d : Word) (o : Owner) : State :=
  { s with inFlight := some { requester := .control, transfer := .write a d 15, owner := o } }

/-- A mailbox request of a kind is at the memory port, with its arguments captured. -/
def asking (s : State) (kind : Nat) (args : List Nat) : State :=
  flying { s with args := Table.tabulate (fun i => BitVec.ofNat 32 (args.getD i.val 0)) } 0x3000 (BitVec.ofNat 32 kind)
    (.port .request)

/-- A port's buffer holds one write. -/
def posted (s : State) (p : Port) (a : Addr) (d : Word) (e : BitVec 4) : State :=
  s.withPort p { PortState.reset with buffer := [{ addr := a, data := d, enables := e }] }

/-- A port's buffer holds a write that passes. -/
def passing (s : State) (p : Port) (a : Addr) (d : Word) (k : PassKind) : State :=
  s.withPort p { PortState.reset with buffer := [{ addr := a, data := d, enables := 15 }], disposed := some k }

/-- A station has a record. -/
def with0 (s : State) (n : StationNo) (d : Station) : State := { s with stations := s.stations.put n d }

/-- A station's record in a state of its lifecycle, running FWD at LOW. -/
def inState (x : LifeState) : Station :=
  { Station.reset with state := x, request := { dir := .fwd, speed := .low }, effective := { dir := .fwd, speed := .low } }

/-- The state a command leaves. -/
def after (c : Instr) (s : State) : State :=
  match exec c s with
  | .next t => t
  | .fault _ => s
  | .refused _ => s

/-- An incident with its plan 1 for segment 0 and flow FWD. -/
def fire (o : Origin) (x : AirflowPhase) : Incident :=
  { number := 7, origin := o, segment := 0, flow := .fwd, plan := 1, declaredTime := 0, boost := false, airflow := x }

/-- A state in FIRE: station 0 holds the RUN target of the plan. -/
def inFire (o : Origin) (x : AirflowPhase) : State :=
  { with0 live 0 { Station.reset with target := some { role := .run, dir := .fwd, speed := .low, rank := 0, tier := 1 } } with
    incident := some (fire o x)
    view := some (Vector.replicate 64 true)
    airflow := { AirflowMonitor.reset with hold := some 0, deadline := some 0 } }

/-- A report record. -/
def someRecord : ReportRecord :=
  { kind := .boostApplied, stamp := 0, subject := 7, detailA := 1, detailB := 1 }

/-- The image writer's work list, alone at the memory port. -/
def listed (l : List WorkEntry) (b : List ReportRecord) (progress : Nat) : State :=
  { live with writer := { ImageWriter.reset with workList := l, buffer := b, progress := progress } }

/-! ### Well-formed commands -/

theorem test_wellFormed_refuses_an_unaligned_portWrite :
    (Instr.portWrite .control (.write { addr := 0x1002, data := 0, enables := 15 })).wellFormed = false := by decide

theorem test_wellFormed_refuses_an_unaligned_held_read :
    (Instr.writeHeldAtPort .scanner (.read 0x1001)).wellFormed = false := by decide

theorem test_wellFormed_takes_an_aligned_access :
    (Instr.portWrite .control (.read 0x1004)).wellFormed = true := by decide

/-! ### The setup is one a close takes -/

theorem test_setup_is_canonical : Cells.wf 0 setup = true := by decide +kernel

theorem test_setup_passes_the_checks : Setup.firstFault (Setup.checks setup) = none := by decide +kernel

theorem test_no_table_word_spells_a_command : decodeTableWord 32 0 = none := by decide

/-! ### The queue, the reset, the clock -/

theorem test_hyp_step :
    ({ live with pending := [.timeStampTick, .reset] } : State).pending = .timeStampTick :: [.reset]
      ∧ step { live with pending := [.timeStampTick, .reset] } = .next { live.tick with pending := [.reset] }
      ∧ live.pending = [] ∧ step live = .next live := by
  refine ⟨rfl, rfl, rfl, rfl⟩

theorem test_hyp_reset :
    let s : State := (live.withPort .control { PortState.reset with held := some (.write ⟨4, 5, 15⟩), read := some 8 })
    (s.port .control).held = some (.write ⟨4, 5, 15⟩) ∧ (s.port .control).read = some 8
      ∧ s.flightOwner ≠ some (.portRead .control) ∧ (s.port .scanner).held = none
      ∧ (after .reset s).part = .capture ∧ (after .reset s).control.read = some 8
      ∧ (after .reset s).control.buffer = [⟨4, 5, 15⟩] := by
  decide +kernel

theorem test_hyp_reset_takes_a_held_read :
    let s : State := live.withPort .scanner
      { PortState.reset with held := some (.read 8), buffer := [⟨4, 5, 15⟩], readData := some 3 }
    (s.port .scanner).held = some (.read 8) ∧ (s.port .scanner).read = none
      ∧ (after .reset s).scanner = { PortState.reset with read := some 8, readData := some 3 }
      ∧ (after .reset { live with turns := [[.claim 1]] }).turns = [[.claim 1]] := by
  decide +kernel

theorem test_hyp_reset_read_under_way :
    let s : State := { live with inFlight := some ⟨.scanner, .read 8, .portRead .scanner⟩, mem := [(8, 1), (9, 2)] }
    let waiting := s.withPort .scanner { PortState.reset with read := some 8, held := some (.read 12) }
    s.inFlight = some ⟨.scanner, .read 8, .portRead .scanner⟩ ∧ (after .reset s).scanner.readData = some 0x201
      ∧ (s.port .scanner).held = none ∧ (after .reset s).scanner.read = none
      ∧ (waiting.port .scanner).held = some (.read 12) ∧ (after .reset waiting).scanner.read = some 12
      ∧ (after .reset waiting).scanner.readData = some 0x201 := by
  decide +kernel

theorem test_hyp_tick :
    let due := with0 live 3 { Station.reset with timer := some 0 }
    let lost : State := { live with feeders := live.feeders.put 7 { Feeder.reset with spacing := some 0, restore := some 4 } }
    let old : State := { live with sources := live.sources.put 111 { Source.reset with age := some 0 } }
    State.reset.part ≠ .guard ∧ live.part = .guard ∧ (after .timeStampTick live).stamp = 1
      ∧ (due.station 3).timer = some 0 ∧ after .timeStampTick due = due
      ∧ (lost.feeder 7).spacing = some 0 ∧ after .timeStampTick lost = lost
      ∧ (old.source 111).age = some 0 ∧ after .timeStampTick old = old
      ∧ ((after .timeStampTick (with0 live 3 { Station.reset with timer := some 1 })).station 3).timer = some 0 := by
  decide +kernel

theorem test_hyp_tick_waits_for_monitors :
    let s : State → State := fun s => { s with alarms := { s.alarms with stage := some 0 } }
    (inFire .declared .pending).airflow.hold = some 0 ∧ (inFire .declared .pending).airflow.deadline = some 0
      ∧ after .timeStampTick (inFire .declared .pending) = inFire .declared .pending
      ∧ (s live).alarms.stage = some 0 ∧ after .timeStampTick (s live) = s live := by
  decide +kernel

/-! ### The ports -/

theorem test_hyp_port_takes :
    let s : State := live.withPort .control { PortState.reset with buffer := List.replicate 7 ⟨4, 5, 15⟩ }
    (s.port .control).held = none ∧ (s.port .control).read = none ∧ s.part ≠ .entering
      ∧ (s.port .control).buffer.length < 8
      ∧ (after (.portWrite .control (.write ⟨4, 5, 15⟩)) s).control.buffer.length = 8
      ∧ (after (.portWrite .control (.read 8)) s).control.read = some 8 := by
  decide +kernel

theorem test_hyp_full_port :
    let s : State := live.withPort .control { PortState.reset with buffer := List.replicate 8 ⟨4, 5, 15⟩ }
    (s.port .control).held = none ∧ (s.port .control).read = none ∧ 8 ≤ (s.port .control).buffer.length
      ∧ (after (.writeHeldAtPort .control (.write ⟨8, 5, 15⟩)) s).control.held = some (.write ⟨8, 5, 15⟩)
      ∧ (after (.writeHeldAtPort .control (.write ⟨8, 5, 15⟩)) { State.reset with part := .entering }).control.held
          = some (.write ⟨8, 5, 15⟩) := by
  decide +kernel

theorem test_hyp_held_write :
    let s : Nat → State := fun k =>
      live.withPort .scanner { PortState.reset with buffer := List.replicate k ⟨4, 5, 15⟩, held := some (.write ⟨8, 5, 15⟩) }
    ((s 7).port .scanner).held = some (.write ⟨8, 5, 15⟩) ∧ (s 7).part ≠ .entering ∧ ((s 7).port .scanner).buffer.length < 8
      ∧ 8 ≤ ((s 8).port .scanner).buffer.length
      ∧ (after (.heldWriteAccepted .scanner) (s 7)).scanner.buffer.length = 8
      ∧ after (.heldWriteAccepted .scanner) (s 8) = s 8
      ∧ after (.heldWriteAccepted .scanner) { s 0 with part := .entering } = { s 0 with part := .entering } := by
  decide +kernel

theorem test_hyp_presentations :
    let entering : State := { State.reset with part := .entering }
    let waits := live.withPort .control { PortState.reset with read := some 8 }
    let holds := live.withPort .scanner { PortState.reset with held := some (.read 8) }
    (after (.portWrite .control (.read 8)) entering).control.held = some (.read 8)
      ∧ (waits.port .control).read ≠ none ∧ after (.portWrite .control (.write ⟨4, 5, 15⟩)) waits = waits
      ∧ (holds.port .scanner).held ≠ none ∧ after (.writeHeldAtPort .scanner (.read 4)) holds = holds
      ∧ (after (.heldWriteAccepted .scanner) holds).scanner = { PortState.reset with read := some 8 }
      ∧ after (.heldWriteAccepted .scanner) { holds with part := .entering } = { holds with part := .entering } := by
  decide +kernel

/-! ### Dispositions -/

theorem test_hyp_capture :
    let s : Addr → BitVec 4 → State := fun a e => posted State.reset .control a 1 e
    (s 0 15).part = .capture ∧ ((s 0 15).port .control).buffer = [⟨0, 1, 15⟩] ∧ ((s 0 15).port .control).disposed = none
      ∧ (after (.writeDisposition .control) (s 0xFBFFC 15)).control.disposed = some .plain
      ∧ (after (.writeDisposition .control) (s 0xFC000 1)).control.disposed = some .setup
      ∧ (after (.writeDisposition .control) (s 0xFDFFC 15)).control.disposed = some .setup
      ∧ (after (.writeDisposition .control) (s 0xFE000 15)).control.disposed = some .plain
      ∧ (after (.writeDisposition .control) (s 0xFFFFC 15)).control.disposed = some .close
      ∧ (after (.writeDisposition .control) (s 0xFFFFC 7)).control.disposed = some .plain
      ∧ ({ State.reset with part := .entering } : State).part = .entering := by
  decide +kernel

theorem test_hyp_head_write :
    let s : Addr → Word → State := fun a d => posted { live with writer := { live.writer with head := 2 } } .control a d 15
    (s 0x2000 0).guardDisposition .control ⟨0x2000, 0, 15⟩ = .refuse .port
      ∧ (s 0xFC000 0).guardDisposition .control ⟨0xFC000, 0, 15⟩ = .refuse .setupClosed
      ∧ (after (.writeDisposition .control) (s 0x2000 0)).writer.buffer.length = 1
      ∧ (s 0x4004 2).guardDisposition .control ⟨0x4004, 2, 15⟩ = .pass .tail
      ∧ (after (.writeDisposition .control) (s 0x4004 2)).writer.checkedTail = 2
      ∧ (s 0 0).guardDisposition .control ⟨0, 0, 15⟩ = .pass .plain
      ∧ (after (.writeDisposition .control) (s 0 0)).control.disposed = some .plain := by
  decide +kernel

theorem test_hyp_windows :
    Setup.windowAt setup 0xFFC = none ∧ live.guardDisposition .control ⟨0xFFC, 0, 1⟩ = .pass .plain
      ∧ (Setup.windowAt setup 0x1000).map Window.kind = some (some .command)
      ∧ live.guardDisposition .scanner ⟨0x10FC, 0, 15⟩ = .refuse .port
      ∧ (Setup.windowAt setup 0x2000).map Window.kind = some (some .feedback)
      ∧ live.guardDisposition .scanner ⟨0x2000, 0, 7⟩ = .refuse .partialLanes
      ∧ live.guardDisposition .scanner ⟨0x21BC, 0, 15⟩ = .pass (.source 111)
      ∧ live.guardDisposition .scanner ⟨0x21C0, 0, 15⟩ = .pass .plain
      ∧ (Setup.windowAt setup 0x6000).map Window.kind = some (some .guarded)
      ∧ live.guardDisposition .control ⟨0x6000, 0, 15⟩ = .refuse .readOnly
      ∧ live.guardDisposition .scanner ⟨0x603C, 0, 1⟩ = .pass .plain
      ∧ (Setup.windowAt setup 0x5000).map Window.kind = some (some .snapshot)
      ∧ live.guardDisposition .control ⟨0x57FC, 0, 15⟩ = .refuse .readOnly := by
  decide +kernel

theorem test_hyp_window_edges :
    [0xFFF, 0x1000, 0x10FF, 0x1100, 0x603F, 0x6040].map (fun a => (Setup.windowAt setup a).map Window.base)
        = [none, some 0x1000, some 0x1000, none, some 0x6000, none]
      ∧ Setup.windowAt setup 0x6000 = some ⟨0x6000, 64, some .guarded, true, false⟩
      ∧ Setup.windowAt (Cells.write 0 setup 1 0x05010102) 0x6000 = none
      ∧ Setup.windowOf setup .snapshot = some ⟨0x5000, 2048, some .snapshot, false, false⟩ := by
  decide +kernel

theorem test_hyp_mailbox_and_report :
    (Setup.windowAt setup 0x3000).map Window.kind = some (some .mailbox)
      ∧ live.guardDisposition .control ⟨0x3000, 0, 15⟩ = .pass .request
      ∧ live.guardDisposition .control ⟨0x3004, 0, 15⟩ = .pass (.argument 0)
      ∧ live.guardDisposition .control ⟨0x3018, 0, 15⟩ = .pass (.argument 5)
      ∧ live.guardDisposition .control ⟨0x3018, 0, 3⟩ = .refuse .partialLanes
      ∧ live.guardDisposition .control ⟨0x301C, 0, 3⟩ = .refuse .readOnly
      ∧ live.guardDisposition .control ⟨0x3020, 0, 3⟩ = .pass .plain
      ∧ (Setup.windowAt setup 0x4004).map Window.kind = some (some .report)
      ∧ live.guardDisposition .control ⟨0x4000, 0, 15⟩ = .refuse .readOnly
      ∧ live.guardDisposition .control ⟨0x4004, 0, 7⟩ = .refuse .partialLanes
      ∧ live.tailInRange 0 = true ∧ live.guardDisposition .control ⟨0x4004, 0, 15⟩ = .pass .tail
      ∧ live.tailInRange 1 = false ∧ live.guardDisposition .control ⟨0x4004, 1, 15⟩ = .refuse .badTail := by
  decide +kernel

/-- The setup with a REPORT window of another size. -/
def reportOf (size : Word) : Cells Word := Cells.write 0 setup 29 size

theorem test_hyp_capacities_and_tails :
    let s : State := { live with writer := { live.writer with head := 1, checkedTail := 29 } }
    let d : Word → Disposition := fun t => s.guardDisposition .control ⟨0x4004, t, 15⟩
    [512, 1024, 2048, 4096, 8192].map (fun x => Setup.capacity (reportOf x)) = [31, 63, 127, 255, 255]
      ∧ (Setup.windowOf setup .report).map Window.size = some 512
      ∧ s.writer.head < Setup.capacity s.copy ∧ s.writer.checkedTail < Setup.capacity s.copy
      ∧ [29, 30, 0, 1].map d = List.replicate 4 (.pass .tail) ∧ [28, 2, 31].map d = List.replicate 3 (.refuse .badTail) := by
  decide +kernel

theorem test_hyp_command_checks :
    (Setup.windowAt setup 0x1000).map Window.kind = some (some .command)
      ∧ live.guardDisposition .control ⟨0x1000, 1, 7⟩ = .refuse .partialLanes
      ∧ live.present 63 = false ∧ live.guardDisposition .control ⟨0x10FC, 1, 15⟩ = .refuse .absent
      ∧ live.present 3 = true ∧ Setup.headsGang setup (live.static 3).leader = true
      ∧ live.guardDisposition .control ⟨0x100C, 1, 15⟩ = .refuse .ganged
      ∧ live.guardDisposition .control ⟨0x1000, 3, 15⟩ = .refuse .badValue
      ∧ live.guardDisposition .control ⟨0x1000, 2, 15⟩ = .absorb 0 := by
  decide +kernel

/-- A command window of 512 bytes has words that address no station. -/
def wide : State := { live with copy := Cells.write 0 (Cells.write 0 setup 17 512) 16 0x1000 }

theorem test_hyp_command_beyond :
    (Setup.windowAt wide.copy 0x1100).map Window.kind = some (some .command)
      ∧ wide.guardDisposition .control ⟨0x1100, 1, 15⟩ = .refuse .absent := by
  decide +kernel

theorem test_hyp_accepted :
    let s := posted live .control 0x1008 6 15
    s.part = .guard ∧ s.control.buffer = [⟨0x1008, 6, 15⟩] ∧ s.control.disposed = none
      ∧ (Setup.windowAt s.copy 0x1008).map Window.kind = some (some .command)
      ∧ s.guardDisposition .control ⟨0x1008, 6, 15⟩ = .absorb 2 ∧ Setup.headsGang s.copy 2 = true
      ∧ ((after .commandWrite s).station 3).request = { dir := .rev, speed := .high }
      ∧ ((after .commandWrite s).station 2).state = .queued := by
  decide +kernel

theorem test_hyp_gang :
    (List.range 4).map (Setup.headsGang setup) = [false, false, true, false] ∧ Setup.gangMembers setup 2 = [2, 3]
      ∧ Setup.gangMembers setup 3 = [] := by
  decide +kernel

/-- A grant falls between the claims of the two members, and the member that claimed first starts at once. -/
theorem test_hyp_accepted_in_turns :
    let s : State := { posted live .control 0x1008 6 15 with turns := [[.claim 3, .grant 0, .claim 2], [.claim 2]] }
    let t := after .commandWrite s
    s.addressed 2 = [2, 3] ∧ (t.station 3).state = .starting ∧ (t.station 2).state = .queued ∧ t.turns = [[.claim 2]]
      ∧ (after .commandWrite (posted live .control 0x1008 6 15)).feeder 0
          = { Feeder.reset with queue := [⟨2, .start, ⟨.rev, .high⟩, .control, 0⟩, ⟨3, .start, ⟨.rev, .high⟩, .control, 0⟩] } := by
  decide +kernel

theorem test_hyp_accepted_in_the_order_of_the_claims :
    let s : State := { posted live .control 0x1008 6 15 with turns := [[.claim 2, .grant 0, .claim 3]] }
    s.addressed 2 = [2, 3] ∧ ((after .commandWrite s).station 2).state = .starting
      ∧ ((after .commandWrite s).station 3).request = { dir := .rev, speed := .high } := by
  decide +kernel

/-- A command write for station 0 finds it in a state, its request at FWD LOW, with an entry of a kind in its queue. -/
def commanded (x : LifeState) (kind : EntryKind) (d : Word) : State :=
  let s := with0 (posted live .control 0x1000 d 15) 0
    { inState x with effective := { dir := .fwd, speed := if kind = .start then .off else .low } }
  { s with feeders := s.feeders.put 0 { Feeder.reset with
      slotsInUse := 1, queue := if x = .queued then [⟨0, kind, ⟨.fwd, .low⟩, .control, 0⟩] else [] } }

/-- Where a command write leaves station 0: its state, its effective command, the queue's targets and the slots. -/
def moved (s : State) : LifeState × FanCommand × List FanCommand × Nat :=
  let t := after .commandWrite s
  ((t.station 0).state, (t.station 0).effective, (t.feeder 0).queue.map QueueEntry.target, (t.feeder 0).slotsInUse)

theorem test_hyp_command_write_in_queued :
    (commanded .queued .start 0).guardDisposition .control ⟨0x1000, 0, 15⟩ = .absorb 0
      ∧ ((commanded .queued .raise 2).station 0).request ≠ { dir := .fwd, speed := .high }
      ∧ moved (commanded .queued .start 0) = (.off, ⟨.fwd, .off⟩, [], 1)
      ∧ moved (commanded .queued .start 6) = (.queued, ⟨.fwd, .off⟩, [⟨.rev, .high⟩], 1)
      ∧ moved (commanded .queued .raise 0) = (.stopping, ⟨.fwd, .off⟩, [], 1)
      ∧ moved (commanded .queued .raise 5) = (.stopping, ⟨.fwd, .off⟩, [], 1)
      ∧ moved (commanded .queued .raise 2) = (.queued, ⟨.fwd, .low⟩, [⟨.fwd, .high⟩], 1)
      ∧ moved (with0 (commanded .queued .raise 1) 0
          { inState .queued with request := ⟨.fwd, .high⟩ }) = (.running, ⟨.fwd, .low⟩, [], 1) := by
  decide +kernel

theorem test_hyp_command_write_in_starting_and_running :
    moved (commanded .starting .raise 0) = (.stopping, ⟨.fwd, .off⟩, [], 0)
      ∧ moved (commanded .starting .raise 6) = (.starting, ⟨.fwd, .low⟩, [], 1)
      ∧ moved (commanded .running .raise 0) = (.stopping, ⟨.fwd, .off⟩, [], 1)
      ∧ moved (commanded .running .raise 5) = (.stopping, ⟨.fwd, .off⟩, [], 1)
      ∧ moved (commanded .running .raise 1) = (.running, ⟨.fwd, .low⟩, [], 1)
      ∧ moved (commanded .running .raise 2) = (.queued, ⟨.fwd, .low⟩, [⟨.fwd, .high⟩], 1)
      ∧ moved (with0 (commanded .running .raise 1) 0
          { inState .running with request := ⟨.fwd, .high⟩, effective := ⟨.fwd, .high⟩ }) = (.running, ⟨.fwd, .low⟩, [], 1) := by
  decide +kernel

theorem test_hyp_command_write_stored :
    let planned : State := with0 (posted live .control 0x1000 0 15) 0
      { inState .running with target := some ⟨.run, .fwd, .low, 0, 1⟩ }
    (planned.station 0).target ≠ none ∧ moved planned = (.running, ⟨.fwd, .low⟩, [], 0)
      ∧ ((after .commandWrite planned).station 0).request = ⟨.fwd, .off⟩
      ∧ moved (commanded .stopping .start 2) = (.stopping, ⟨.fwd, .off⟩, [], 1)
      ∧ moved (commanded .locked .start 2) = (.locked, ⟨.fwd, .off⟩, [], 1) := by
  decide +kernel

theorem test_hyp_request_from_off :
    let s := posted live .control 0x1000 1 15
    s.guardDisposition .control ⟨0x1000, 1, 15⟩ = .absorb 0 ∧ Setup.headsGang s.copy 0 = false
      ∧ (s.station 0).state = .off ∧ (s.station 0).request.speed = .off ∧ (s.station 0).target = none
      ∧ (s.station 0).effective.speed = .off ∧ (commandReadIn 1).speed ≠ .off ∧ (commandReadIn 4).speed = .off
      ∧ (((after .commandWrite s).feeder 0).queue.map QueueEntry.station) = [0]
      ∧ (after .commandWrite s).writer.workList = [.station 0] := by
  decide +kernel

theorem test_hyp_queue_insert :
    let e : StationNo → EntryClass → QueueEntry := fun n c => ⟨n, .start, ⟨.fwd, .low⟩, c, 5⟩
    (∀ x ∈ [e 1 (.plan 0), e 0 .control], x.station ≠ (e 2 (.plan 1)).station)
      ∧ [e 1 (.plan 0), e 0 .control].Pairwise (fun a b => a.before b = true)
      ∧ queueInsert (e 2 (.plan 1)) [e 1 (.plan 0), e 0 .control] = [e 1 (.plan 0), e 2 (.plan 1), e 0 .control] := by
  decide +kernel

theorem test_hyp_queue_retarget :
    let e : StationNo → EntryClass → QueueEntry := fun n c => ⟨n, .start, ⟨.fwd, .low⟩, c, 5⟩
    let q := [e 1 (.plan 0), e 0 .control]
    q.Pairwise (fun a b => a.before b = true) ∧ (q.map QueueEntry.station).Nodup ∧ queueFind 1 q = some (e 1 (.plan 0))
      ∧ queueRetarget 1 ⟨.rev, .low⟩ (.plan 0) q = [⟨1, .start, ⟨.rev, .low⟩, .plan 0, 5⟩, e 0 .control]
      ∧ queueRetarget 1 ⟨.fwd, .low⟩ .control q = [e 0 .control, e 1 .control] := by
  decide +kernel

/-! ### The memory port -/

/-- All three requesters wait, the scanner port having lost twice. -/
def contended : State :=
  { passing (passing live .control 0 1 .plain) .scanner 4 1 .plain with
    writer := { ImageWriter.reset with workList := [.station 0] }
    arbiter := ⟨⟨0, 0⟩, ⟨1, 2⟩, ⟨2, 0⟩⟩ }

theorem test_hyp_arbiter :
    contended.inFlight = none ∧ contended.waiting .scanner = true ∧ contended.winner = some .scanner
      ∧ (∀ q, contended.waiting q = true → q ≠ .scanner →
          (contended.arbiter.of .scanner).value < (contended.arbiter.of q).value
            ∨ ((contended.arbiter.of .scanner).value = (contended.arbiter.of q).value
              ∧ (contended.arbiter.of q).lost < (contended.arbiter.of .scanner).lost))
      ∧ (after .memoryGrant contended).arbiter = ⟨⟨0, 1⟩, ⟨1, 0⟩, ⟨2, 1⟩⟩ := by
  refine ⟨rfl, by decide +kernel, by decide +kernel, ?_, by decide +kernel⟩
  intro q
  cases q <;> decide +kernel

/-- With its head entry unchecked the image writer has nothing to present, and its grant changes nothing (log 17). -/
theorem test_hyp_arbiter_unchecked_head :
    (listed [.record false] [someRecord] 0).winner = some .image ∧ (listed [.record false] [someRecord] 0).reading = []
      ∧ after .memoryGrant (listed [.record false] [someRecord] 0) = listed [.record false] [someRecord] 0
      ∧ (listed [.overflow none] [] 0).winner = some .image
      ∧ after .memoryGrant (listed [.overflow none] [] 0) = listed [.overflow none] [] 0 := by
  decide +kernel

theorem test_hyp_port_grant :
    let s := passing live .control 0x3000 1 .request
    let r : State := live.withPort .scanner { PortState.reset with read := some 0x3000 }
    s.inFlight = none ∧ s.winner = some (requesterOf .control) ∧ (s.port .control).buffer = [⟨0x3000, 1, 15⟩]
      ∧ (s.port .control).disposed = some .request
      ∧ (after .memoryGrant s).inFlight = some ⟨.control, .write 0x3000 1 15, .port .request⟩
      ∧ r.winner = some (requesterOf .scanner) ∧ (r.port .scanner).buffer = [] ∧ (r.port .scanner).read = some 0x3000
      ∧ (after .memoryGrant r).inFlight = some ⟨.scanner, .read 0x3000, .portRead .scanner⟩ := by
  decide +kernel

theorem test_hyp_single_accesses :
    (listed [.station 1] [] 0).winner = some .image ∧ (listed [.station 1] [] 0).reading = []
      ∧ (after .memoryGrant (with0 (listed [.station 1] [] 0) 1 (inState .running))).inFlight
          = some ⟨.image, .write 0x1004 0x31 15, .station 1⟩
      ∧ (after .memoryGrant (listed [.reply 5] [] 0)).inFlight = some ⟨.image, .write 0x301C 5 15, .none⟩
      ∧ (after .memoryGrant (listed [.droppedCount] [] 0)).inFlight = some ⟨.image, .write 0x4008 0 15, .none⟩
      ∧ (after .memoryGrant (listed [.setupResult 5] [] 0)).inFlight = some ⟨.image, .write 0xFFFF8 5 15, .none⟩
      ∧ (after .memoryGrant (listed [.entering 0x500C 0 true] [] 0)).inFlight
          = some ⟨.image, .write 0x500C 0 15, .enteringEnd⟩
      ∧ ({ listed [] [] 0 with reading := [3] } : State).winner = some .image
      ∧ (after .memoryGrant { listed [] [] 0 with reading := [3] }).inFlight = some ⟨.image, .read 0x100C, .readIn 3⟩ := by
  decide +kernel

theorem test_hyp_record_grants :
    let s : Nat → Nat → State := fun head progress =>
      let x := listed [.record true, .station 0] [someRecord] progress
      { x with writer := { x.writer with head := head } }
    (s 30 0).winner = some .image ∧ (s 30 0).reading = [] ∧ (s 30 0).writer.head < Setup.capacity (s 30 0).copy
      ∧ (after .memoryGrant (s 30 0)).inFlight = some ⟨.image, .write 0x41F0 0x10013 15, .none⟩
      ∧ (after .memoryGrant (s 30 3)).writer.progress = 4
      ∧ (after .memoryGrant (s 30 4)).inFlight = some ⟨.image, .write 0x4000 0 15, .recordHead .airflow⟩
      ∧ (after .memoryGrant (s 30 4)).writer.buffer = [] := by
  decide +kernel

theorem test_hyp_overflow_grants :
    let r : ReportRecord := { kind := .overflow, stamp := 4, subject := 0, detailA := 0, detailB := 9 }
    let s : Nat → State := fun progress => listed [.overflow (some r), .station 0] [someRecord] progress
    (s 0).winner = some .image ∧ (s 0).writer.head < Setup.capacity (s 0).copy
      ∧ (after .memoryGrant (s 0)).inFlight = some ⟨.image, .write 0x4010 0x71 15, .none⟩
      ∧ (after .memoryGrant (s 3)).inFlight = some ⟨.image, .write 0x401C 9 15, .none⟩
      ∧ (after .memoryGrant (s 4)).inFlight = some ⟨.image, .write 0x4000 1 15, .recordHead .ring⟩
      ∧ (after .memoryGrant (s 4)).writer.workList = [.station 0]
      ∧ (after .memoryGrant (s 4)).writer.buffer = [someRecord] := by
  decide +kernel

theorem test_hyp_snapshot_grants :
    let x : Snapshot := ⟨9, 3, 0, 4, [slotOf live 0, slotOf live 1]⟩
    let s : Nat → State := fun progress =>
      let y := listed [.snapshot] [] progress
      { y with writer := { y.writer with snapshot := some x } }
    (s 0).winner = some .image ∧ (s 0).writer.workList = [.snapshot] ∧ (s 0).writer.snapshot = some x
      ∧ x.ordinal < 4294967296
      ∧ (after .memoryGrant (s 0)).inFlight = some ⟨.image, .write 0x500C 0 15, .none⟩
      ∧ (after .memoryGrant (s 1)).inFlight = some ⟨.image, .write 0x5010 0x40 15, .none⟩
      ∧ (after .memoryGrant (s 12)).inFlight = some ⟨.image, .write 0x500C 4 15, .snapshotEnd⟩
      ∧ (after .memoryGrant (s 12)).writer.workList = [] := by
  decide +kernel

theorem test_hyp_plain :
    let r : State := { live with inFlight := some ⟨.control, .read 8, .portRead .control⟩, mem := [(9, 2)] }
    (flying live 8 0x200 (.port .plain)).inFlight = some ⟨.control, .write 8 0x200 15, .port .plain⟩
      ∧ (after .plainWrite (flying live 8 0x200 (.port .plain))).mem = [(9, 2)]
      ∧ (after .plainWrite (flying live 8 0x200 .none)).inFlight = none
      ∧ r.inFlight = some ⟨.control, .read 8, .portRead .control⟩
      ∧ (after .plainWrite r).control.readData = some 0x200 := by
  decide +kernel

/-! ### Field feedback -/

theorem test_hyp_source_write :
    let s := flying { live with tenths := 12 } 0x20FC 0 (.port (.source 63))
    s.part = .guard ∧ s.inFlight = some ⟨.control, .write 0x20FC 0 15, .port (.source 63)⟩
      ∧ sourceInUse s.copy 63 = false ∧ sourceInUse s.copy 0 = true
      ∧ (after .sourceWrite s).source 63 = ⟨.fresh, some 20, 12, 12, 12, 0⟩ := by
  decide +kernel

theorem test_hyp_source_restored :
    let s : Nat → State := fun k =>
      flying { live with
        tenths := 70000, sources := live.sources.put 0 { Source.reset with freshness := .stale, staleCount := 2 }
        writer := { live.writer with buffer := List.replicate k someRecord } } 0x2000 0x100 (.port (.source 0))
    sourceInUse setup 0 = true ∧ ((s 0).source 0).freshness = .stale ∧ (s 15).writer.buffer.length < 16
      ∧ (after .sourceWrite (s 15)).writer.buffer.drop 15
          = [{ kind := .sourceRestored, stamp := 70000, subject := 0, detailA := 0, detailB := 0x2FFFF }]
      ∧ (after .sourceWrite (s 0)).writer.buffer.map ReportRecord.kind = [.sourceRestored, .stationTripped]
      ∧ 16 ≤ (s 16).writer.buffer.length ∧ (after .sourceWrite (s 16)).writer.dropped = 2 := by
  decide +kernel

/-- A station word is at the memory port. -/
def stationWord (x : LifeState) (d : Word) : State :=
  flying (with0 live 0 { inState x with timer := some 9 }) 0x2000 d (.port (.source (stationSource 0)))

theorem test_hyp_station_word_trips :
    let s := stationWord .running 0x100
    s.present 0 = true ∧ (s.station 0).state.out = false ∧ (s.station 0).locks.localSwitch = (0x100#32).getLsbD 9
      ∧ (0x100#32).getLsbD 8 = true ∧ ((after .sourceWrite s).station 0).state = .tripped
      ∧ (s.station 0).locks = ⟨false, false⟩ ∧ (0x300#32).getLsbD 9 = true
      ∧ ((after .sourceWrite (stationWord .tripped 0x300)).station 0).state = .locked
      ∧ (after .sourceWrite s).writer.workList = [.station 0, .record false]
      ∧ (after .sourceWrite s).reports = [⟨0, false⟩] := by
  decide +kernel

theorem test_hyp_station_word_locks :
    let s : Bool → Bool → Word → State := fun op loc d =>
      flying (with0 live 0 { inState .locked with locks := ⟨op, loc⟩ }) 0x2000 d (.port (.source (stationSource 0)))
    let left : State → LifeState × LockSet × List AvailabilityReport := fun s =>
      (((after .sourceWrite s).station 0).state, ((after .sourceWrite s).station 0).locks, (after .sourceWrite s).reports)
    ((s false true 0).station 0).locks = ⟨false, true⟩ ∧ (0#32).getLsbD 9 = false
      ∧ left (s false true 0) = (.dwell, ⟨false, false⟩, [⟨0, true⟩])
      ∧ left (s false true 0x130) = (.stopping, ⟨false, false⟩, [⟨0, true⟩])
      ∧ left (s true true 0) = (.locked, ⟨true, false⟩, []) ∧ left (s true false 0x200) = (.locked, ⟨true, true⟩, [])
      ∧ left (s false true 0x300) = (.locked, ⟨false, true⟩, [])
      ∧ (after .sourceWrite (s true false 0x200)).writer.buffer.map ReportRecord.detailB = [0x33]
      ∧ (after .sourceWrite (s true true 0)).writer.buffer.map ReportRecord.detailB = [0x11] := by
  decide +kernel

theorem test_hyp_station_word_locks_and_trips_from_the_queue :
    let q : Word → State := fun d =>
      flying { with0 live 0 (inState .queued) with
        feeders := live.feeders.put 0 { Feeder.reset with queue := [⟨0, .start, ⟨.fwd, .low⟩, .control, 0⟩] } } 0x2000 d
        (.port (.source (stationSource 0)))
    ((q 0x200).station 0).state ≠ .locked ∧ (after .sourceWrite (q 0x200)).feeder 0 = Feeder.reset
      ∧ (after .sourceWrite (q 0x200)).writer.buffer.map ReportRecord.detailB = [0x23]
      ∧ (after .sourceWrite (q 0x100)).feeder 0 = Feeder.reset
      ∧ (after .sourceWrite (q 0x100)).writer.buffer.map ReportRecord.detailB = [0x11]
      ∧ ((after .sourceWrite (stationWord .tripped 0x100)).station 0).state = .tripped
      ∧ (after .sourceWrite (stationWord .tripped 0x100)).writer.buffer = [] := by
  decide +kernel

theorem test_hyp_station_word_judged :
    let s := stationWord .running 0
    (s.station 0).state = .running ∧ s.supplied 0 = true
      ∧ ((after .sourceWrite s).station 0).tripCause = some .unexpectedStop
      ∧ (s.supplyLost 0).supplied 0 = false
      ∧ ((after .sourceWrite (s.supplyLost 0)).station 0).state = .dwell
      ∧ ((stationWord .starting 0x21).station 0).timer.isSome = true
      ∧ ((stationWord .starting 0x21).station 0).requested = ((stationWord .starting 0x21).station 0).effective
      ∧ ((after .sourceWrite (stationWord .starting 0x21)).station 0).state = .running := by
  decide +kernel

/-- Station 0 waits with an entry of a kind, or runs in a state, at FWD LOW with a request, and a word arrives. -/
def judged (x : LifeState) (kind : EntryKind) (c : FanCommand) (d : Word) : State :=
  let s := stationWord x d
  { with0 s 0 { s.station 0 with request := c } with
    feeders := s.feeders.put 0 { Feeder.reset with
      slotsInUse := 1, queue := if x = .queued then [⟨0, kind, c, .control, 0⟩] else [] } }

/-- Where the word leaves station 0, the slots of its feeder, and the queue's targets. -/
def judgedTo (s : State) : LifeState × FanCommand × Nat × List FanCommand :=
  let t := after .sourceWrite s
  ((t.station 0).state, (t.station 0).effective, (t.feeder 0).slotsInUse, (t.feeder 0).queue.map QueueEntry.target)

theorem test_hyp_station_word_by_state :
    let low : FanCommand := ⟨.fwd, .low⟩
    judgedTo (judged .off .start ⟨.fwd, .off⟩ 0) = (.off, low, 1, [])
      ∧ judgedTo (judged .queued .start low 0) = (.queued, low, 1, [low])
      ∧ judgedTo (judged .queued .raise ⟨.fwd, .high⟩ 0x21) = (.queued, low, 1, [⟨.fwd, .high⟩])
      ∧ judgedTo (judged .queued .raise ⟨.fwd, .high⟩ 0) = (.tripped, ⟨.fwd, .off⟩, 1, [])
      ∧ judgedTo ((judged .queued .raise ⟨.fwd, .high⟩ 0).supplyLost 0) = (.dwell, ⟨.fwd, .off⟩, 1, [])
      ∧ judgedTo ((judged .starting .start low 0).supplyLost 0) = (.dwell, ⟨.fwd, .off⟩, 0, [])
      ∧ judgedTo (judged .starting .start low 0) = (.starting, low, 1, [])
      ∧ judgedTo (judged .running .start low 0x13) = (.running, low, 1, [])
      ∧ judgedTo (judged .stopping .start low 0) = (.dwell, ⟨.fwd, .off⟩, 1, [])
      ∧ judgedTo (judged .stopping .start low 0x31) = (.stopping, low, 1, [])
      ∧ judgedTo (judged .dwell .start low 0x21) = (.dwell, low, 1, []) := by
  decide +kernel

theorem test_hyp_matching_word :
    let high := fun c : FanCommand =>
      with0 (judged .starting .start c 0x22) 0
        { inState .starting with request := c, effective := ⟨.fwd, .high⟩, timer := some 9 }
    judgedTo (judged .starting .start ⟨.fwd, .low⟩ 0x21) = (.running, ⟨.fwd, .low⟩, 0, [])
      ∧ judgedTo (judged .starting .start ⟨.fwd, .off⟩ 0x21) = (.stopping, ⟨.fwd, .off⟩, 0, [])
      ∧ judgedTo (judged .starting .start ⟨.rev, .low⟩ 0x21) = (.stopping, ⟨.fwd, .off⟩, 0, [])
      ∧ judgedTo (high ⟨.fwd, .low⟩) = (.running, ⟨.fwd, .low⟩, 0, [])
      ∧ judgedTo (judged .starting .start ⟨.fwd, .high⟩ 0x21) = (.queued, ⟨.fwd, .low⟩, 0, [⟨.fwd, .high⟩])
      ∧ judgedTo (judged .starting .start ⟨.fwd, .low⟩ 0x25) = (.starting, ⟨.fwd, .low⟩, 1, []) := by
  decide +kernel

/-- A feeder word is at the memory port, the feeder in a supply state. -/
def feederWord (x : Supply) (d : Word) : State :=
  flying { live with feeders := live.feeders.put 0 { Feeder.reset with supply := x } } 0x2100 d (.port (.source 64))

theorem test_hyp_feeder_word :
    (feederWord .present 7).activeFeeder 0 = true ∧ ((feederWord .present 7).feeder 0).supply = .present
      ∧ ((after .sourceWrite (feederWord .present 7)).feeder 0).supply = .lost
      ∧ (after .sourceWrite (feederWord .present 7)).reports.length = 4
      ∧ ((after .sourceWrite (feederWord .restoring 2)).feeder 0).supply = .lost
      ∧ (Setup.feeder setup 0).restoreDelay ≠ 0
      ∧ (after .sourceWrite (feederWord .lost 1)).feeder 0 = { Feeder.reset with supply := .restoring, restore := some 50 } := by
  decide +kernel

theorem test_hyp_feeder_word_again :
    (after .sourceWrite (feederWord .present 1)).feeder 0 = Feeder.reset
      ∧ (after .sourceWrite (feederWord .present 1)).writer.buffer = []
      ∧ ((after .sourceWrite (feederWord .restoring 1)).feeder 0).supply = .restoring
      ∧ ((after .sourceWrite (feederWord .lost 0)).feeder 0).supply = .lost
      ∧ (after .sourceWrite (feederWord .lost 0)).writer.buffer = []
      ∧ (after .sourceWrite (feederWord .present 0)).writer.buffer.map ReportRecord.kind = [.feederLost] := by
  decide +kernel

theorem test_hyp_feeder_word_without_delay :
    let s : State := { feederWord .lost 1 with copy := Cells.write 0 setup 49 0 }
    s.activeFeeder 0 = true ∧ (Setup.feeder s.copy 0).restoreDelay = 0
      ∧ ((after .sourceWrite s).feeder 0).supply = .present ∧ (after .sourceWrite s).reports.length = 4 := by
  decide +kernel

theorem test_hyp_anemometer_word :
    let s := flying live 0x2120 0x1FF38 (.port (.source 72))
    (72 : SourceNo).val = 72 + (0 : AnemometerNo).val ∧ (0 : AnemometerNo).val < Setup.anemometerCount s.copy
      ∧ Setup.anemometerNegative s.copy 0 = true
      ∧ (after .sourceWrite s).airflow.anemometers.nth 0 = ⟨true, 200, true⟩
      ∧ (after .sourceWrite (flying (inFire .declared .pending) 0x2120 0x1FF38 (.port (.source 72)))).airflow.hold = some 100
      ∧ (after .sourceWrite (flying (inFire .declared .established) 0x2120 0x1FF38 (.port (.source 72)))).airflow.hold
          = none := by
  decide +kernel

theorem test_hyp_met :
    let m : Bool → Bool → Int → AirflowMonitor := fun fresh valid v =>
      { AirflowMonitor.reset with anemometers := AirflowMonitor.reset.anemometers.put 0 ⟨fresh, v, valid⟩ }
    let i := fire .declared .pending
    (Setup.watchList setup 1 = [0] ∧ (Setup.plan setup 1).velocity = 200)
      ∧ metFor setup (m true true 200) i = true ∧ metFor setup (m true true 199) i = false
      ∧ metFor setup (m false true 200) i = false ∧ metFor setup (m true false 200) i = false
      ∧ metFor setup (m true true (-200)) { i with flow := .rev } = true := by
  decide +kernel

/-- A detector word of segment 1 is at the memory port. -/
def detectorWord (s : State) (d : Word) : State := flying s 0x2144 d (.port (.source 81))

theorem test_hyp_detector_word :
    (81 : SourceNo).val = 80 + (1 : SegmentNo).val ∧ (1 : SegmentNo).val < Setup.segmentCount setup
      ∧ live.alarms.conditions.nth 1 = .normal ∧ live.incident = none ∧ live.alarms.escalation = .idle
      ∧ (after .sourceWrite (detectorWord live 1)).alarms.alarmList = [⟨1, 0, .uncovered⟩]
      ∧ (after .sourceWrite (detectorWord live 1)).alarms.stage = some 100
      ∧ (after .sourceWrite (detectorWord (inFire .declared .pending) 1)).alarms.alarmList = [⟨1, 0, .incident⟩]
      ∧ (after .sourceWrite (detectorWord live 0)).alarms = live.alarms
      ∧ (after .sourceWrite (detectorWord live 2)).alarms.conditions.nth 1 = .fault := by
  decide +kernel

/-- Segment 1 has an entry in the alarm list. -/
def alarmed (s : State) (c : Covering) : State :=
  { s with alarms := { AlarmEscalator.reset with
      alarmList := [⟨1, 0, c⟩], escalation := .waitControl, stage := some 0, conditions := s.alarms.conditions.put 1 .alarm } }

/-- What a detector word leaves: segment 1's condition, the entries' coverings, the escalation and the records made. -/
def detected (s : State) (d : Word) : Condition × List Covering × Escalation × List RecordKind :=
  let t := after .sourceWrite (detectorWord s d)
  (t.alarms.conditions.nth 1, t.alarms.alarmList.map AlarmEntry.covering, t.alarms.escalation,
    t.writer.buffer.map ReportRecord.kind)

theorem test_hyp_detector_transitions :
    let faulty : State := { live with alarms := live.alarms.withCondition 1 .fault }
    let two : State := { alarmed live .uncovered with
      alarms := { (alarmed live .uncovered).alarms with alarmList := [⟨1, 0, .uncovered⟩, ⟨0, 0, .uncovered⟩] } }
    (faulty.alarms.conditions.nth 1 = .fault ∧ (alarmed live .ack).alarms.conditions.nth 1 = .alarm)
      ∧ detected faulty 1 = (.alarm, [.uncovered], .waitControl, [.detectorAlarm])
      ∧ detected faulty 0 = (.normal, [], .idle, [.detectorCleared]) ∧ detected faulty 9 = (.fault, [], .idle, [])
      ∧ detected live 2 = (.fault, [], .idle, [.detectorFault])
      ∧ detected (alarmed live .uncovered) 0 = (.normal, [], .idle, [.detectorCleared])
      ∧ detected (alarmed live .uncovered) 2 = (.fault, [], .idle, [.detectorCleared, .detectorFault])
      ∧ detected (alarmed live .ack) 0 = (.normal, [], .waitControl, [.detectorCleared])
      ∧ detected two 0 = (.normal, [.uncovered], .waitControl, [.detectorCleared])
      ∧ detected (alarmed live .uncovered) 1 = (.alarm, [.uncovered], .waitControl, []) := by
  decide +kernel

theorem test_hyp_age_expiry :
    let s : State := { live with sources := live.sources.put 72 { Source.reset with age := some 0 } }
    (s.source 72).freshness ≠ .stale ∧ (s.source 72).age = some 0
      ∧ (after (.ageExpiry 72) s).source 72 = { Source.reset with freshness := .stale, staleCount := 1 }
      ∧ (after (.ageExpiry 72) s).writer.buffer.length = 1 := by
  decide +kernel

theorem test_hyp_age_expiry_of_an_anemometer :
    let s : AirflowPhase → SourceNo → State := fun x k =>
      { inFire .declared x with
        sources := live.sources.put k { Source.reset with freshness := .fresh, age := some 0 }
        airflow := { AirflowMonitor.reset with
          hold := some 7, anemometers := AirflowMonitor.reset.anemometers.put 0 ⟨true, 200, true⟩ } }
    Setup.anemometerCount setup = 1 ∧ ((s .pending 72).source 72).freshness ≠ .stale
      ∧ metFor setup (s .pending 72).airflow (fire .declared .pending) = true
      ∧ (after (.ageExpiry 72) (s .pending 72)).airflow.hold = none
      ∧ (after (.ageExpiry 72) (s .established 72)).airflow.hold = some 100
      ∧ (after (.ageExpiry 73) (s .pending 73)).airflow = (s .pending 73).airflow := by
  decide +kernel

/-! ### The mailbox -/

theorem test_hyp_completions :
    let c : State := { flying State.reset 0xFC004 0x12345678 (.port .setup) with
      inFlight := some ⟨.control, .write 0xFC004 0x12345678 5, .port .setup⟩ }
    (after .argumentWrite (flying live 0x3004 9 (.port (.argument 0)))).args.nth 0 = 9
      ∧ c.part = .capture ∧ c.inFlight = some ⟨.control, .write 0xFC004 0x12345678 5, .port .setup⟩
      ∧ (after .setupWrite c).copy = [(1, 0x00340078)]
      ∧ (flying live 0x500C 1 .snapshotEnd).inFlight = some ⟨.control, .write 0x500C 1 15, .snapshotEnd⟩
      ∧ (after .snapshotComplete (flying live 0x500C 1 .snapshotEnd)).writer.snapshot = none := by
  decide +kernel

theorem test_hyp_unknown_kind :
    (asking live 0 []).part = .guard ∧ (asking live 0 []).flightOwner = some (.port .request)
      ∧ (asking live 6 []).flightData.toNat = 6
      ∧ (after .unknownRequestKind (asking live 6 [])).writer.workList = [.reply 0x010C0306]
      ∧ (after .unknownRequestKind { asking live 0 [] with requestCount := 255 }).requestCount = 1 := by
  decide +kernel

/-- The last reply placed. -/
def lastReply (s : State) : Option WorkEntry := s.writer.workList.getLast?

theorem test_hyp_incident_checks :
    (asking live 1 [4]).arg 0 = 4
      ∧ lastReply (after .replan (asking live 1 [4])) = some (.reply 0x01010301)
      ∧ lastReply (after .declare (asking live 1 [1, 32768])) = some (.reply 0x01010301)
      ∧ (asking live 1 [1, 32767, 2]).arg 2 = Setup.segmentCount setup
      ∧ lastReply (after .declare (asking live 1 [1, 32767, 2])) = some (.reply 0x01020301)
      ∧ lastReply (after .declare (asking live 1 [1, 1, 1, 2])) = some (.reply 0x01010301)
      ∧ lastReply (after .release (asking live 1 [3, 1])) = some (.reply 0x01050301)
      ∧ lastReply (after .replan (asking (inFire .declared .pending) 1 [2, 8])) = some (.reply 0x01040301)
      ∧ lastReply (after .declare (asking (inFire .declared .pending) 1 [1, 8])) = some (.reply 0x01030301) := by
  decide +kernel

theorem test_hyp_declare :
    let s := asking live 1 [1, 7, 1, 1]
    s.arg 0 = 1 ∧ s.arg 1 = 7 ∧ s.arg 2 < Setup.segmentCount s.copy ∧ s.arg 3 ≤ 1 ∧ s.incident = none
      ∧ (after .declare s).incident = some { fire .declared .pending with segment := 1, flow := .rev }
      ∧ ((after .declare s).station 0).target = some ⟨.run, .rev, .low, 0, 1⟩
      ∧ ((after .declare s).station 0).state = .queued ∧ lastReply (after .declare s) = some (.reply 0x01000101) := by
  decide +kernel

/-- Entries that follow one another in the order of R99, each governing over the ones after it. -/
def ranked : List PoolEntry :=
  [⟨2, 1, 0, 3, 0⟩, ⟨2, 1, 0, 4, 0⟩, ⟨1, 2, 2, 15, 0⟩, ⟨1, 1, 1, 0, 0⟩, ⟨1, 1, 1, 1, 0⟩, ⟨1, 2, 1, 0, 0⟩]

theorem test_hyp_governing :
    (List.range 6).map (fun i => governing ((ranked.drop i).reverse)) = ranked.map some
      ∧ (List.range 6).map (fun i => governing (ranked.drop i)) = ranked.map some
      ∧ governing [⟨1, 1, 1, 0, 5⟩, ⟨1, 1, 1, 0, 6⟩] = some ⟨1, 1, 1, 0, 5⟩ ∧ governing [] = none := by
  decide +kernel

theorem test_hyp_entries_in_force :
    entriesFor setup 1 false 0 = [⟨1, 1, 1, 0, 0⟩] ∧ entriesFor setup 1 false 2 = []
      ∧ entriesFor setup 1 true 2 = [⟨1, 2, 2, 1, 2⟩] ∧ entriesFor setup 1 true 3 = [⟨1, 2, 2, 1, 2⟩]
      ∧ targetOf .rev ⟨1, 2, 2, 1, 2⟩ = ⟨.run, .rev, .high, 1, 2⟩ ∧ targetOf .rev ⟨2, 1, 2, 1, 2⟩ = ⟨.holdOff, .rev, .off, 1, 1⟩
      ∧ planTarget setup { fire .declared .pending with boost := true } 3 = some ⟨.run, .fwd, .high, 1, 2⟩ := by
  decide +kernel

theorem test_hyp_declare_with_an_original_out :
    let s := asking (with0 live 0 { inState .locked with locks := ⟨true, false⟩ }) 1 [1, 7, 0, 0]
    let t := after .declare s
    (t.station 1).target = some ⟨.spare 0, .fwd, .low, 0, 1⟩ ∧ (t.station 1).state = .queued
      ∧ t.writer.buffer.map ReportRecord.kind = [.incidentDeclared, .spareEngaged]
      ∧ s.searched t (fun _ => true) = [0]
      ∧ ((s.searched t (fun _ => true)).map (s.searchRecord t (fun _ => false))).map ReportRecord.detailB = [0] := by
  decide +kernel

/-- A grant falls between two stations' claims of a presentation: the first one is started before the other has claimed
(R110, log 11). -/
theorem test_hyp_declare_in_turns :
    let both : Cells Word := Cells.write 0 setup 1025 0x00010116
    let s : State := { asking { live with copy := both } 1 [1, 7, 0, 0] with turns := [[.claim 0, .grant 0]] }
    ((after .declare s).station 0).state = .starting ∧ (after .declare s).turns = []
      ∧ ((after .declare { s with turns := [] }).station 0).state = .queued
      ∧ ((after .declare { s with turns := [[.grant 0]] }).station 0).state = .queued := by
  decide +kernel

theorem test_hyp_replan_and_adopt :
    let s := asking (inFire .automatic .established) 1
    (s [2, 7, 1, 0]).incident = some (fire .automatic .established) ∧ (s [2, 7, 1, 0]).arg 1 = 7
      ∧ (after .replan (s [2, 7, 1, 0])).incident = some { fire .automatic .pending with segment := 1 }
      ∧ (after .declare (s [1, 9, 1, 0])).incident = some { fire .declared .pending with segment := 1, number := 9 }
      ∧ (after .declare (s [1, 9, 1, 0])).notices = 1 := by
  decide +kernel

theorem test_hyp_release :
    let s := asking (inFire .declared .short) 1 [3, 7]
    s.arg 0 = 3 ∧ s.arg 1 = 7 ∧ s.incident = some (fire .declared .short) ∧ (after .release s).incident = none
      ∧ (asking live 1 [3, 32767]).arg 1 = 32767 ∧ live.incident = none
      ∧ lastReply (after .release (asking live 1 [3, 32767])) = some (.reply 0x01050301)
      ∧ lastReply (after .release (asking (inFire .declared .short) 1 [3, 1])) = some (.reply 0x01040301)
      ∧ ((after .release s).station 0).target = none := by
  decide +kernel

/-- Station 2 has no target and waits to start: a release leaves its record, and a grant between the claims of stations
0 and 1 starts it (R110, log 11). -/
theorem test_hyp_release_in_turns :
    let d : Station := { inState .running with target := some ⟨.run, .fwd, .low, 0, 1⟩ }
    let x := with0 (with0 (with0 (asking (inFire .declared .short) 1 [3, 7]) 0 d) 1 d) 2 { inState .off with state := .queued }
    let s : State := { x with
      feeders := x.feeders.put 0 { Feeder.reset with queue := [⟨2, .start, ⟨.fwd, .high⟩, .control, 0⟩] } }
    (after .release s).station 2 = s.station 2
      ∧ ((after .release { s with turns := [[.claim 0, .grant 0]] }).station 2).state = .starting
      ∧ ((after .release { s with turns := [[.claim 0, .grant 0]] }).station 2).request = (s.station 2).request
      ∧ ((after .release s).station 0).request = d.request := by
  decide +kernel

theorem test_hyp_alarm_ack :
    (asking live 2 [2]).arg 0 = Setup.segmentCount setup
      ∧ lastReply (after .alarmAck (asking live 2 [2])) = some (.reply 0x01020302)
      ∧ live.alarms.entryOf 1 = none ∧ lastReply (after .alarmAck (asking live 2 [1])) = some (.reply 0x01060302)
      ∧ (alarmed live .incident).alarms.entryOf 1 = some ⟨1, 0, .incident⟩
      ∧ lastReply (after .alarmAck (asking (alarmed live .incident) 2 [1])) = some (.reply 0x01070302)
      ∧ lastReply (after .alarmAck (asking (alarmed live .ack) 2 [1])) = some (.reply 0x01000102)
      ∧ (alarmed live .uncovered).alarms.escalation ≠ .idle
      ∧ (after .alarmAck (asking (alarmed live .uncovered) 2 [1])).alarms.escalation = .idle := by
  decide +kernel

theorem test_hyp_lock :
    lastReply (after .lock (asking live 3 [64, 1])) = some (.reply 0x01080303)
      ∧ live.present 4 = false ∧ lastReply (after .lock (asking live 3 [4, 1])) = some (.reply 0x01080303)
      ∧ live.present 0 = true ∧ lastReply (after .lock (asking live 3 [0, 2])) = some (.reply 0x01010303)
      ∧ (live.station 0).locks.operator = decide ((asking live 3 [0, 0]).arg 1 = 1)
      ∧ (after .lock (asking live 3 [0, 0])).writer.buffer = []
      ∧ (live.station 0).locks = ⟨false, false⟩
      ∧ ((after .lock (asking live 3 [0, 1])).station 0).state = .locked := by
  decide +kernel

theorem test_hyp_unlock :
    let d : Option Observed → State := fun o =>
      asking (with0 live 0 { Station.reset with state := .locked, locks := ⟨true, false⟩, observed := o }) 3 [0, 0]
    ((d none).station 0).locks = ⟨true, false⟩ ∧ (d none).arg 1 = 0
      ∧ ((after .lock (d none)).station 0).state = .stopping
      ∧ ((after .lock (d (some ⟨.stopped, .fwd, some .off, false, false⟩))).station 0).state = .dwell := by
  decide +kernel

theorem test_hyp_lock_reports :
    let s : LifeState → State := fun x => asking (commanded x .start 0) 3 [0, 1]
    let dark : State → State := fun s => { s with feeders := s.feeders.put 0 { s.feeder 0 with supply := .lost } }
    let reports := fun s : State => (after .lock s).reports
    reports (s .running) = [⟨0, false⟩] ∧ reports (s .tripped) = [] ∧ reports (dark (s .running)) = []
      ∧ ((s .queued).feeder 0).queue.length = 1 ∧ ((after .lock (s .queued)).feeder 0).queue = []
      ∧ ((s .starting).feeder 0).slotsInUse = 1 ∧ ((after .lock (s .starting)).feeder 0).slotsInUse = 0 := by
  decide +kernel

theorem test_hyp_unlock_reports :
    let d : State := asking (with0 live 0 { inState .locked with locks := ⟨true, false⟩ }) 3 [0, 0]
    let dark : State := { d with feeders := d.feeders.put 0 { d.feeder 0 with supply := .lost } }
    (after .lock d).reports = [⟨0, true⟩] ∧ (after .lock dark).reports = []
      ∧ ((after .lock d).station 0).effective = ⟨.fwd, .off⟩ := by
  decide +kernel

theorem test_hyp_lock_beside_local :
    let d : Bool → Nat → State := fun op on =>
      asking (with0 live 0 { Station.reset with state := .locked, locks := ⟨op, true⟩ }) 3 [0, on]
    ((d false 1).station 0).locks = ⟨false, true⟩ ∧ ((after .lock (d false 1)).station 0).locks = ⟨true, true⟩
      ∧ (after .lock (d false 1)).writer.buffer.map ReportRecord.detailB = [0x32]
      ∧ ((after .lock (d true 0)).station 0).locks = ⟨false, true⟩
      ∧ ((after .lock (d true 0)).station 0).state = .locked
      ∧ (after .lock (d true 0)).writer.buffer.map ReportRecord.detailB = [0x20] := by
  decide +kernel

theorem test_hyp_trip_reset :
    let d : Bool → State := fun trip =>
      asking (with0 live 0 { Station.reset with
        state := .tripped, tripCause := some .driveTrip, observed := some ⟨.stopped, .fwd, none, trip, false⟩ }) 4 [0]
    lastReply (after .tripReset (asking live 4 [64])) = some (.reply 0x01080304)
      ∧ lastReply (after .tripReset (asking live 4 [0])) = some (.reply 0x01090304)
      ∧ ((d true).station 0).state = .tripped ∧ lastReply (after .tripReset (d true)) = some (.reply 0x010B0304)
      ∧ ((after .tripReset (d false)).station 0).timer = some 100
      ∧ (after .tripReset (d false)).reports = [⟨0, true⟩]
      ∧ (after .tripReset { d false with feeders := live.feeders.put 0 { Feeder.reset with supply := .lost } }).reports = [] := by
  decide +kernel

theorem test_hyp_snapshot :
    let busy : State := { live with writer := { live.writer with snapshot := some ⟨0, 1, 0, 1, []⟩ } }
    busy.writer.snapshot.isSome = true ∧ lastReply (after .snapshot (asking busy 5 [1])) = some (.reply 0x01030305)
      ∧ live.writer.snapshot = none ∧ lastReply (after .snapshot (asking live 5 [])) = some (.reply 0x01010305)
      ∧ (asking live 5 [3]).args.nth 0 ≠ 0
      ∧ (after .snapshot (asking live 5 [0, 0x80000000])).writer.snapshot.map (fun x => x.slots.map SnapshotSlot.station)
          = some [63]
      ∧ (after .snapshot (asking live 5 [3])).writer.workList = [.reply 0x01000205, .snapshot] := by
  decide +kernel

theorem test_hyp_snapshot_words :
    let s := with0 live 0
      { inState .tripped with tripCause := some .noFeedback, target := some ⟨.holdOff, .rev, .off, 0, 1⟩, timer := some 5
                              locks := ⟨true, false⟩, stopFlag := true }
    let words := (after .snapshot (asking s 5 [1, 0x80000000])).writer.snapshot.map (fun x => x.slots.map SnapshotSlot.words)
    words = some [[0x53160040, 0x00050104, 0, 0], [0x3F, 0xFFFF0000, 0, 0]] := by
  decide +kernel

/-! ### Reports -/

theorem test_hyp_hand :
    let w : Nat → Nat → ImageWriter := fun k d =>
      { ImageWriter.reset with buffer := List.replicate k someRecord, dropped := d }
    (w 15 0).buffer.length < 16 ∧ 16 ≤ (w 16 0).buffer.length ∧ ((w 15 0).hand someRecord).buffer.length = 16
      ∧ ((w 16 65534).hand someRecord).dropped = 65535 ∧ ((w 16 65535).hand someRecord).dropped = 65535
      ∧ ((w 16 0).hand someRecord).workList = [.droppedCount] := by
  decide +kernel

/-- The ring is full: the head stands 30 slots behind the ring tail 0. -/
def full (s : State) : State := { s with writer := { s.writer with head := 30 } }

theorem test_hyp_head_entry :
    (listed [.record false] [someRecord] 0).ringFull = false
      ∧ (after .recordDue (listed [.record false] [someRecord] 0)).writer.workList = [.record true]
      ∧ (full (listed [.record false] [someRecord] 0)).ringFull = true
      ∧ (after .recordDue (full (listed [.record false] [someRecord] 0))).writer.dropped = 1
      ∧ (after .overflow (full (listed [.overflow none] [] 0))).writer.workList = []
      ∧ (after .overflow (listed [.overflow none, .reply 1] [] 0)).writer.workList.length = 3 := by
  decide +kernel

theorem test_hyp_unread :
    let h : State := flying live 0x4000 1 (.recordHead .alarm)
    let t : Nat → State := fun progress => flying
      { live with writer := { ImageWriter.reset with
          unread := [.alarm], interrupt := true, head := 1, dropped := 5, workList := [.reply 1], progress := progress } }
      0x4004 1 (.port .tail)
    h.inFlight = some ⟨.control, .write 0x4000 1 15, .recordHead .alarm⟩
      ∧ (after .recordHeadCompletion h).writer.interrupt = true
      ∧ 0 < ringDiff (Setup.capacity setup) 1 0 ∧ 0 < (t 0).writer.dropped
      ∧ (∀ x ∈ (t 0).writer.workList, x.isOverflow = false)
      ∧ (after .tailWrite (t 0)).writer.interrupt = false
      ∧ (after .tailWrite (t 0)).writer.workList = [.overflow none, .reply 1]
      ∧ (after .tailWrite (t 1)).writer.workList = [.reply 1, .overflow none]
      ∧ ringDiff (Setup.capacity setup) 0 0 = 0 := by
  decide +kernel

/-- Where a tail write that frees a slot with a drop to announce leaves the work list. -/
def tailed (l : List WorkEntry) (progress : Nat) : List WorkEntry :=
  (after .tailWrite (flying { live with writer := { ImageWriter.reset with
    unread := [.alarm], head := 1, dropped := 5, workList := l, progress := progress } } 0x4004 1 (.port .tail))).writer.workList

theorem test_hyp_overflow_placed :
    tailed [] 0 = [.overflow none] ∧ tailed [.record true, .reply 1] 0 = [.overflow none, .record false, .reply 1]
      ∧ tailed [.record true, .reply 1] 2 = [.record true, .overflow none, .reply 1]
      ∧ tailed [.reply 1, .overflow none] 0 = [.reply 1, .overflow none]
      ∧ tailed [.overflow (some someRecord)] 3 = [.overflow (some someRecord)] := by
  decide +kernel

/-! ### Setup capture -/

/-- A close over a setup, with a close value. -/
def closing (c : Cells Word) (d : Word) : State := flying { State.reset with copy := c } 0xFFFFC d (.port .close)

/-- The sum of the words of the setup. -/
def setupSum : Word := setup.foldl (fun acc x => acc + x.2) 0

theorem test_hyp_close_fails :
    checksum [] ≠ 1 ∧ (after .close (closing [] 1)).writer.workList = [.setupResult 0x102]
      ∧ checksum [] = 0 ∧ Setup.firstFault (Setup.checks []) = some (.badFormat, 0)
      ∧ (after .close (closing [] 0)).writer.workList = [.setupResult 0x103] := by
  decide +kernel

/-- The first fault a setup with one word changed is closed with. -/
def faultWith (k : Nat) (v : Word) : Option (SetupCode × Nat) := Setup.firstFault (Setup.checks (Cells.write 0 setup k v))

theorem test_result_word : resultWord .badReportWindow 255 2047 = 0x07FFFF0C ∧ resultWord .ok 1 0 = 0x101 := by decide

theorem test_hyp_close_checks :
    faultWith 0 2 = some (.badFormat, 0) ∧ faultWith 2 0x00020000 = some (.badCount, 2)
      ∧ faultWith 22 1 = some (.badWindow, 20) ∧ faultWith 38 7 = some (.badWindow, 36)
      ∧ faultWith 257 0x10000 = some (.badStation, 256) ∧ faultWith 48 5 = some (.badFeeder, 48)
      ∧ faultWith 7 0x00090064 = some (.badTiming, 7) ∧ faultWith 107 2 = some (.badIndex, 107)
      ∧ faultWith 515 0x02580031 = some (.badPlanHeader, 512) ∧ faultWith 1025 0x00040129 = some (.badPlanEntry, 1025)
      ∧ faultWith 29 256 = some (.badReportWindow, 28) := by
  decide +kernel

theorem test_hyp_close_succeeds :
    checksum setup = setupSum ∧ (after .close (closing setup setupSum)).part = .entering
      ∧ (after .close (closing setup setupSum)).reading = [0, 1, 2, 3]
      ∧ (after .close (closing setup setupSum)).writer.workList.length = 6 := by
  decide +kernel

theorem test_hyp_read_in :
    let s : State := { live with part := .entering, mem := [(0x1000, 5)], inFlight := some ⟨.image, .read 0x1000, .readIn 0⟩ }
    s.part = .entering ∧ s.inFlight = some ⟨.image, .read 0x1000, .readIn 0⟩
      ∧ ((after .readIn s).station 0).state = .running
      ∧ ((after .readIn s).station 0).effective = { dir := .rev, speed := .low } := by
  decide +kernel

theorem test_hyp_guard_entry :
    let s : State := (flying { live with part := .entering } 0x500C 0 .enteringEnd).withPort .control
      { PortState.reset with held := some (.write ⟨4, 5, 15⟩) }
    let s' := s.withPort .scanner { PortState.reset with held := some (.read 8) }
    s.part = .entering ∧ s.inFlight = some ⟨.control, .write 0x500C 0 15, .enteringEnd⟩
      ∧ (s.port .control).held = some (.write ⟨4, 5, 15⟩) ∧ (s.port .control).buffer.length < 8
      ∧ (s'.port .scanner).held = some (.read 8) ∧ (s'.port .scanner).read = none
      ∧ (after .guardEntry s).part = .guard ∧ (after .guardEntry s).control.buffer = [⟨4, 5, 15⟩]
      ∧ (after .guardEntry s').scanner.read = some 8 ∧ ((after .guardEntry s).source 111).age = some 20 := by
  decide +kernel

/-! ### Feeders and stations -/

/-- Station 0 waits in its feeder's queue. -/
def waitingToStart : State :=
  { with0 live 0 { Station.reset with state := .queued } with
    feeders := live.feeders.put 0 { Feeder.reset with queue := [⟨0, .start, ⟨.fwd, .low⟩, .control, 3⟩] } }

theorem test_hyp_grant :
    waitingToStart.activeFeeder 0 = true ∧ (waitingToStart.feeder 0).supply = .present
      ∧ (waitingToStart.feeder 0).slotsInUse < (Setup.feeder setup 0).slots ∧ (waitingToStart.feeder 0).spacing = none
      ∧ (waitingToStart.station 0).state ≠ .starting
      ∧ (after (.grant 0) waitingToStart).station 0 = { Station.reset with
          state := .starting, effective := ⟨.fwd, .low⟩, entered := true, writeBackPending := true }
      ∧ (after (.grant 0) waitingToStart).writer.workList = [.station 0]
      ∧ (after (.grant 0) waitingToStart).feeder 0 = { Feeder.reset with slotsInUse := 1, spacing := some 20 }
      ∧ (live.feeder 0).queue = [] ∧ after (.grant 0) live = live
      ∧ live.activeFeeder 1 = false ∧ after (.grant 1) live = live := by
  decide +kernel

theorem test_hyp_feeder_timers :
    let s : State := { live with
      feeders := live.feeders.put 0 { Feeder.reset with supply := .restoring, restore := some 0, spacing := some 0 } }
    (s.feeder 0).spacing = some 0 ∧ (s.feeder 0).supply = .restoring ∧ (s.feeder 0).restore = some 0
      ∧ ((after (.spacingExpiry 0) s).feeder 0).spacing = none
      ∧ ((after (.restoreExpiry 0) s).feeder 0).supply = .present
      ∧ (after (.restoreExpiry 0) s).reports.length = 4 := by
  decide +kernel

theorem test_hyp_station_timers :
    let s : LifeState → State := fun x => with0 live 0 { inState x with timer := some 0 }
    ((s .starting).station 0).timer = some 0
      ∧ ((after (.startTimeout 0) (s .starting)).station 0).tripCause = some .noFeedback
      ∧ ((after (.stopTimeoutExpiry 0) (s .stopping)).station 0).stopFlag = true
      ∧ ((s .dwell).station 0).requested.speed ≠ .off
      ∧ ((after (.dwellExpiry 0) (s .dwell)).station 0).state = .queued
      ∧ (after (.startTimeout 0) (s .starting)).reports = [⟨0, false⟩]
      ∧ ((after (.dwellExpiry 0) (with0 live 0 { inState .dwell with timer := some 0, effective := ⟨.rev, .off⟩ })).feeder
          0).queue = [⟨0, .start, ⟨.fwd, .low⟩, .control, 0⟩]
      ∧ ((after (.dwellExpiry 0) (with0 live 0 { Station.reset with state := .dwell, timer := some 0 })).station 0).state
          = .off := by
  decide +kernel

theorem test_hyp_write_back :
    let s : LifeState → Bool → State := fun x b => flying (with0 live 0 { inState x with entered := b }) 0x1000 0 (.station 0)
    (s .starting false).inFlight = some ⟨.control, .write 0x1000 0 15, .station 0⟩
      ∧ ((after .writeBackCompletion (s .starting false)).station 0).timer = some 100
      ∧ ((after .writeBackCompletion (s .stopping false)).station 0).timer = some 100
      ∧ ((after .writeBackCompletion (s .starting true)).station 0).timer = none
      ∧ ((after .writeBackCompletion (s .running false)).station 0).timer = none := by
  decide +kernel

/-! ### Airflow and incident -/

theorem test_hyp_airflow_timers :
    (inFire .declared .pending).incident = some (fire .declared .pending)
      ∧ (inFire .declared .pending).airflow.hold = some 0
      ∧ (after .holdExpiry (inFire .declared .pending)).incident = some (fire .declared .established)
      ∧ (after .lossExpiry (inFire .declared .established)).incident = some (fire .declared .pending)
      ∧ (after .lossExpiry (inFire .declared .established)).airflow.deadline = some 600 := by
  decide +kernel

theorem test_hyp_deadline :
    let b : State := { inFire .declared .pending with incident := some { fire .declared .pending with boost := true } }
    (inFire .declared .pending).airflow.deadline = some 0
      ∧ (∃ x ∈ Setup.planEntries setup 1, x.tier = 2)
      ∧ standsFor ((inFire .declared .pending).station 3).target = none
      ∧ ((after .deadlineExpiry (inFire .declared .pending)).station 3).target = some ⟨.run, .fwd, .high, 1, 2⟩
      ∧ (after .deadlineExpiry b).incident = some { fire .declared .short with boost := true } := by
  decide +kernel

/-- The records that the failing anemometer 0 is shown in (segment 0), after the loss and in SHORT with boost applied. -/
theorem test_hyp_failing_shown :
    let s : AirflowPhase → Anemometer → State := fun x a =>
      { inFire .declared x with
        incident := some { fire .declared x with boost := true }
        airflow := { AirflowMonitor.reset with
          hold := some 0, deadline := some 0, anemometers := AirflowMonitor.reset.anemometers.put 0 a } }
    let shown : Instr → State → List (BitVec 16 × Word) := fun c s =>
      (after c s).writer.buffer.map (fun r => (r.detailA, r.detailB))
    shown .lossExpiry (s .established ⟨false, 0, true⟩) = [(0x101, 0)]
      ∧ shown .lossExpiry (s .established ⟨true, 0, false⟩) = [(0x201, 0)]
      ∧ shown .lossExpiry (s .established ⟨true, 199, true⟩) = [(0x301, 0)]
      ∧ shown .deadlineExpiry (s .pending ⟨true, 200, true⟩) = [(0x1001, 0xFFFF)]
      ∧ shown .deadlineExpiry (s .pending ⟨true, -1, true⟩) = [(0x1301, 0)]
      ∧ shown .holdExpiry (s .short ⟨true, -1, true⟩) = [(0x101, 0xFFFF0000)] := by
  decide +kernel

theorem test_hyp_boost_with_spares :
    let out := with0 (inFire .declared .pending) 2 { inState .locked with locks := ⟨true, false⟩ }
    let s := with0 out 1 { Station.reset with target := some ⟨.spare 0, .fwd, .low, 0, 1⟩ }
    let t := after .deadlineExpiry s
    standsFor (s.station 1).target = some 0 ∧ (t.station 1).target = some ⟨.spare 0, .fwd, .low, 0, 1⟩
      ∧ s.searched t (fun n => !isRun (s.station n).target) = [2]
      ∧ t.writer.buffer.map ReportRecord.kind = [.boostApplied, .spareNone]
      ∧ t.writer.buffer.map ReportRecord.detailB = [1, 255] := by
  decide +kernel

/-- Stations 2 and 3 name spare 1. -/
def spared : Cells Word := Cells.write 0 (Cells.write 0 setup 265 0x00010102) 269 0x00010102

/-- A boost gives stations 2 and 3, both out, their RUN targets, and their spare stands in for the lower-numbered one. -/
theorem test_hyp_boost_engages_a_spare :
    let x : State := { inFire .declared .pending with copy := spared }
    let out : Station := { inState .locked with locks := ⟨true, false⟩ }
    let s := with0 (with0 x 2 out) 3 out
    let t := after .deadlineExpiry s
    (s.incident = some (fire .declared .pending) ∧ s.airflow.deadline = some 0)
      ∧ standsFor (s.station 1).target = none ∧ governing (entriesFor s.copy 1 true 1) = none
      ∧ s.searched t (fun o => !isRun (s.station o).target) = [2, 3] ∧ s.available 1 = true
      ∧ (t.station 1).target = some ⟨.spare 2, .fwd, .high, 1, 2⟩ ∧ (t.station 1).state = .queued
      ∧ (t.station 1).writeBackPending = true
      ∧ t.writer.buffer.map ReportRecord.kind = [.boostApplied, .spareEngaged, .spareNone]
      ∧ t.writer.buffer.map ReportRecord.detailA = [1, 0, 4] := by
  decide +kernel

theorem test_hyp_escalation :
    let s : Escalation → State := fun e =>
      { alarmed live .uncovered with alarms := { (alarmed live .uncovered).alarms with escalation := e, nextNumber := 65535 } }
    (s .waitControl).alarms.stage = some 0
      ∧ (s .waitControl).alarms.alarmList.find? (fun y => y.covering == .uncovered) = some ⟨1, 0, .uncovered⟩
      ∧ (after .t1Expiry (s .waitControl)).alarms.escalation = .waitFinal
      ∧ (after .t2Expiry (s .waitFinal)).autoRequests = [⟨1, .rev, 65535⟩]
      ∧ (after .t2Expiry (s .waitFinal)).alarms.nextNumber = 32768 := by
  decide +kernel

theorem test_hyp_automatic :
    let s : State → State := fun s => { s with autoRequests := [⟨1, .rev, 32768⟩] }
    (s live).autoRequests = [⟨1, .rev, 32768⟩] ∧ (s live).incident = none
      ∧ (after .automaticDeclaration (s live)).answers = [⟨true, ⟨1, .rev, 32768⟩⟩]
      ∧ (after .automaticDeclaration (s live)).incident.map Incident.origin = some .automatic
      ∧ (s (inFire .declared .pending)).incident ≠ none
      ∧ (after .automaticDeclaration (s (inFire .declared .pending))).answers = [⟨false, ⟨1, .rev, 32768⟩⟩] := by
  decide +kernel

theorem test_hyp_answers :
    let s : Bool → State := fun b => { alarmed live .uncovered with answers := [⟨b, ⟨1, .rev, 32768⟩⟩], notices := 1 }
    (s true).answers = [⟨true, ⟨1, .rev, 32768⟩⟩] ∧ (s true).notices = 1
      ∧ (after .declarationAnswer (s true)).alarms.alarmList = [⟨1, 0, .incident⟩]
      ∧ (after .declarationAnswer (s false)).writer.buffer.length = 1
      ∧ (after .declarationNotice (s true)).alarms.escalation = .idle := by
  decide +kernel

theorem test_hyp_availability :
    let s : Bool → State := fun b => { inFire .declared .pending with reports := [⟨0, b⟩] }
    (s false).reports = [⟨0, false⟩] ∧ (s false).incident = some (fire .declared .pending)
      ∧ (s true).view = some (Vector.replicate 64 true)
      ∧ after .availabilityReport (s true) = { s true with reports := [] }
      ∧ ((s false).station 0).target = some ⟨.run, .fwd, .low, 0, 1⟩
      ∧ ((s false).static 0).spareSet = true ∧ ((s false).static 0).spare = 1 ∧ (s false).available 1 = true
      ∧ ((s false).station 1).target = none
      ∧ ((after .availabilityReport (s false)).station 1).target = some ⟨.spare 0, .fwd, .low, 0, 1⟩
      ∧ (after .availabilityReport { live with reports := [⟨0, false⟩] }) = live := by
  decide +kernel

theorem test_hyp_availability_without_a_spare :
    let s : Cells Word → Station → State := fun c d =>
      { with0 (inFire .declared .pending) 1 d with copy := c, reports := [⟨0, false⟩] }
    let shown : Cells Word → Station → List (BitVec 16 × Word) := fun c d =>
      (after .availabilityReport (s c d)).writer.buffer.map (fun r => (r.detailA, r.detailB))
    shown (Cells.write 0 setup 257 0x100) Station.reset = [(1, 0xFF)]
      ∧ shown (Cells.write 0 setup 257 0x14000) Station.reset = [(2, 0x40)]
      ∧ shown setup { inState .locked with locks := ⟨true, false⟩ } = [(2, 1)]
      ∧ shown setup { Station.reset with target := some ⟨.holdOff, .fwd, .off, 0, 1⟩ } = [(3, 1)]
      ∧ shown setup { Station.reset with target := some ⟨.spare 2, .fwd, .low, 0, 1⟩ } = [(4, 1)]
      ∧ shown setup { Station.reset with target := some ⟨.spare 0, .fwd, .low, 0, 1⟩ } = [] := by
  decide +kernel

theorem test_hyp_availability_without_search :
    let s : State := { inFire .declared .pending with
      reports := [⟨1, false⟩, ⟨0, true⟩], view := some ((Vector.replicate 64 true).set 0 false) }
    (s.station 1).target = none ∧ (after .availabilityReport s).reports = [⟨0, true⟩]
      ∧ (after .availabilityReport s).view ≠ s.view ∧ (after .availabilityReport s).stations = s.stations := by
  decide +kernel

/-! ### The laws: states that meet them, and a step from each -/

theorem test_hyp_laws_of_the_arbiter :
    contended.arbiter.fair ∧ step { contended with pending := [.memoryGrant] } = .next (after .memoryGrant contended)
      ∧ (after .memoryGrant contended).arbiter.fair := by
  unfold Arbiter.fair
  exact ⟨by decide +kernel, rfl, by decide +kernel⟩

theorem test_hyp_bounds_and_form :
    live.bounded ∧ live.canonical ∧ step { live with pending := [.reset] } = .next (after .reset live) := by
  unfold State.bounded State.canonical
  exact ⟨by decide +kernel, by decide +kernel, rfl⟩

theorem test_hyp_incident_law : (inFire .declared .pending).incidentLaw ∧ live.incidentLaw := by
  unfold State.incidentLaw
  decide +kernel

theorem test_hyp_queue_law : waitingToStart.queueLaw ∧ (after (.grant 0) waitingToStart).queueLaw := by
  unfold State.queueLaw
  decide +kernel

theorem test_hyp_slot_law :
    (waitingToStart.slotLaw ∧ waitingToStart.slotBound)
      ∧ (after (.grant 0) waitingToStart).slotLaw ∧ (after (.grant 0) waitingToStart).slotBound := by
  unfold State.slotLaw State.slotBound
  decide +kernel

theorem test_hyp_lock_and_trip_law :
    waitingToStart.outLaw ∧ (after .lock (asking waitingToStart 3 [0, 1])).outLaw := by
  unfold State.outLaw
  decide +kernel

theorem test_hyp_write_back_law :
    waitingToStart.writeBackLaw ∧ (after (.grant 0) waitingToStart).writeBackLaw := by
  unfold State.writeBackLaw
  decide +kernel

theorem test_hyp_write_back_set :
    let tripped := asking (with0 live 0 { Station.reset with state := .tripped, tripCause := some .driveTrip }) 4 [0]
    let s := asking live 3 [0, 1]
    step { s with pending := [.lock] } = .next (after .lock s)
      ∧ s.part = .guard ∧ (after .lock s).part = .guard
      ∧ ((after .lock s).station 0).state ≠ (s.station 0).state ∧ ((after .lock s).station 0).writeBackPending = true
      ∧ ((after .tripReset tripped).station 0).tripCause ≠ (tripped.station 0).tripCause
      ∧ ((after .tripReset tripped).station 0).writeBackPending = true := by
  intro tripped s
  exact ⟨rfl, by decide +kernel⟩

theorem test_hyp_interrupt_law :
    live.interruptLaw ∧ (after .recordHeadCompletion (flying live 0x4000 1 (.recordHead .alarm))).interruptLaw := by
  unfold State.interruptLaw
  decide +kernel

theorem test_hyp_order_law :
    let s : State := { waitingToStart with tenths := 3 }
    s.queueLaw ∧ s.orderLaw ∧ (after (.grant 0) s).orderLaw := by
  unfold State.queueLaw State.orderLaw
  decide +kernel

/-- Station 0 waits to start, and asks for what its entry holds. -/
def waitingLawfully : State :=
  with0 waitingToStart 0 { Station.reset with state := .queued, request := ⟨.fwd, .low⟩ }

/-- A command moved only one station: the law of every station's state is that of its record. -/
theorem stateLaw_with0 {s : State} {n : StationNo} {d : Station} (hs : ∀ m, (s.station m).stateLaw) (hd : d.stateLaw) :
    ∀ m, ((with0 s n d).station m).stateLaw := by
  intro m
  by_cases h : m = n
  · subst h
    simpa [with0, State.station, Table.nth_put_self] using hd
  · simpa [with0, State.station, Table.nth_put_ne _ _ h] using hs m

/-- Every station rests. -/
theorem stateLaw_resting {s : State} (h : s.stations = State.reset.stations) : ∀ m, (s.station m).stateLaw := by
  intro m
  have hm : s.station m = Station.reset := by
    unfold State.station
    rw [h]
    revert m
    decide +kernel
  rw [hm]
  exact ⟨rfl, rfl, rfl⟩

theorem test_hyp_lifecycle_law :
    waitingLawfully.queueLaw ∧ waitingLawfully.lifecycleLaw
      ∧ step { waitingLawfully with pending := [.grant 0] } = .next (after (.grant 0) waitingLawfully)
      ∧ (after (.grant 0) waitingLawfully).lifecycleLaw := by
  have placed : (after (.grant 0) waitingLawfully).stations
      = (with0 live 0 { Station.reset with
          state := .starting, request := ⟨.fwd, .low⟩, effective := ⟨.fwd, .low⟩, writeBackPending := true
          entered := true }).stations := by decide +kernel
  have before := stateLaw_with0 (s := live) (n := 0)
    (d := { Station.reset with state := .queued, request := ⟨.fwd, .low⟩ }) (stateLaw_resting rfl) ⟨by decide, rfl⟩
  have afterwards := stateLaw_with0 (s := live) (n := 0)
    (d := { Station.reset with
      state := .starting, request := ⟨.fwd, .low⟩, effective := ⟨.fwd, .low⟩, writeBackPending := true, entered := true })
    (stateLaw_resting rfl) ⟨by decide, by decide⟩
  refine ⟨?_, ⟨before, by decide +kernel⟩, rfl, ⟨?_, by decide +kernel⟩⟩
  · unfold State.queueLaw
    decide +kernel
  · intro n
    unfold State.station
    rw [placed]
    exact afterwards n

/-- An incident in which station 0 runs as the plan has it. -/
def fighting : State :=
  with0 (inFire .declared .pending) 0 { inState .running with target := some ⟨.run, .fwd, .low, 0, 1⟩ }

theorem fighting_targets : ∀ n, (fighting.station n).target = if n = 0 then some ⟨.run, .fwd, .low, 0, 1⟩ else none := by
  decide +kernel

theorem test_hyp_target_law :
    (fighting.incidentLaw ∧ fighting.queueLaw ∧ fighting.lifecycleLaw) ∧ fighting.targetLaw
      ∧ step { fighting with pending := [.timeStampTick] } = .next (after .timeStampTick fighting) := by
  have spares : ∀ n x, (fighting.station n).target = some x → x = ⟨.run, .fwd, .low, 0, 1⟩ := by
    intro n x h
    rw [fighting_targets] at h
    split at h
    · exact (Option.some.inj h).symm
    · cases h
  refine ⟨⟨?_, ?_, ?_, by decide +kernel⟩, ?_, rfl⟩
  · unfold State.incidentLaw
    decide +kernel
  · unfold State.queueLaw
    decide +kernel
  · have running := stateLaw_with0 (s := live) (n := 0)
      (d := { inState .running with target := some ⟨.run, .fwd, .low, 0, 1⟩ }) (stateLaw_resting rfl)
      ⟨by decide, by decide, rfl⟩
    have placed : fighting.stations = (with0 live 0 { inState .running with
      target := some ⟨.run, .fwd, .low, 0, 1⟩ }).stations := by decide +kernel
    intro n
    unfold State.station
    rw [placed]
    exact running n
  · intro i hi
    cases Option.some.inj hi
    refine ⟨by decide +kernel, ?_, ?_⟩
    · intro n o x hx hr
      rw [spares n x hx] at hr
      cases hr
    · intro n x hx hr
      rw [spares n x hx] at hr
      cases hr

theorem test_hyp_reversal :
    (waitingLawfully.part = .guard ∧ waitingLawfully.queueLaw ∧ waitingLawfully.lifecycleLaw)
      ∧ step { waitingLawfully with pending := [.grant 0] } = .next (after (.grant 0) waitingLawfully)
      ∧ (after (.grant 0) waitingLawfully).part = .guard :=
  ⟨⟨rfl, test_hyp_lifecycle_law.1, test_hyp_lifecycle_law.2.1⟩, rfl, by decide +kernel⟩

/-- Where a station's state leads: stop and restart in the other direction pass through the whole of DWELL. -/
theorem test_reversal_through_dwell :
    let turned := with0 (posted live .control 0x1000 6 15) 0 (inState .running)
    let dwell : Nat → State := fun k => with0 live 0
      { inState .dwell with effective := ⟨.fwd, .off⟩, request := ⟨.rev, .high⟩, timer := some k }
    ((after .commandWrite turned).station 0).state = .stopping
      ∧ ((after (.dwellExpiry 0) (dwell 1)).station 0).state = .dwell
      ∧ ((after .timeStampTick (dwell 1)).station 0).timer = some 0
      ∧ ((after (.dwellExpiry 0) (dwell 0)).station 0).state = .queued := by
  decide +kernel

theorem test_hyp_alarm_law :
    (alarmed live .uncovered).alarms.law ∧ (after .sourceWrite (detectorWord (alarmed live .uncovered) 0)).alarms.law
      ∧ step { detectorWord (alarmed live .uncovered) 0 with pending := [.sourceWrite] }
          = .next (after .sourceWrite (detectorWord (alarmed live .uncovered) 0)) := by
  unfold AlarmEscalator.law
  exact ⟨by decide +kernel, by decide +kernel, rfl⟩

/-- A record that has passed its check is due to be written, one record of the ring is unread. -/
def ringed : State :=
  let s := listed [.record true, .station 0] [someRecord] 0
  { s with writer := { s.writer with head := 1, unread := [.station] } }

theorem test_hyp_work_list_law :
    ringed.workListLaw ∧ (after .memoryGrant ringed).workListLaw
      ∧ step { ringed with pending := [.memoryGrant] } = .next (after .memoryGrant ringed) := by
  unfold State.workListLaw
  exact ⟨by decide +kernel, by decide +kernel, rfl⟩

theorem test_hyp_ring_law :
    ringed.ringLaw ∧ step { ringed with pending := [.memoryGrant] } = .next (after .memoryGrant ringed)
      ∧ (after .memoryGrant ringed).ringLaw := by
  have nothing_passes : ∀ s : State, s.control.disposed = none → s.scanner.disposed = none →
      (s.flightOwner = none ∨ s.flightOwner = some .none) → s.part = .guard → s.writer.head = 1 → s.writer.ringTail = 0 →
      s.writer.checkedTail = 0 → s.writer.unread = [.station] → Setup.capacity s.copy = 31 →
      (∀ e ∈ s.writer.workList.tail, e.passed = false) → s.ringLaw := by
    intro s hc hs hf hp hh hr ht hu hcap hl
    refine ⟨hl, fun h => absurd hp h, fun _ => ?_⟩
    have hn : s.flightOwner ≠ some (.port .tail) := by rcases hf with h | h <;> rw [h] <;> decide
    simp only [hh, hr, ht, hu, hcap, hc, hs]
    refine ⟨by decide, by decide, by decide, ?_, by decide, by decide, by decide, fun h => absurd h hn, fun h => ?_,
      fun _ h => absurd h hn, fun _ _ => trivial, fun _ _ _ => by decide⟩
    · rcases hf with h | h <;> rw [h] <;> decide
    · cases h
  refine ⟨nothing_passes _ rfl rfl ?_ rfl rfl rfl rfl rfl rfl ?_, rfl,
    nothing_passes _ ?_ ?_ ?_ ?_ ?_ ?_ ?_ ?_ ?_ ?_⟩ <;> decide +kernel

end Sys2Proof.Tests
end

