-- ==== Sys2Proof/Proofs/AgeExpiry.lean ====
section
/-! PROOF. AGE_EXPIRY (R83): the source goes STALE with its record, and the airflow monitor is told of an anemometer in
use. -/

namespace Sys2Proof.Machine

open Sys2Proof

/-! ### A changed anemometer entry (R127, R129, R134) -/

/-- Met reads the anemometer table only, not the monitor's timers (R126). -/
theorem metFor_congr (c : Cells Word) {m m' : AirflowMonitor} (i : Incident) (h : m.anemometers = m'.anemometers) :
    metFor c m i = metFor c m' i := by
  simp only [metFor, firstFailing, AirflowMonitor.entry, h]

/-- The hold timer stops when met comes to agree with the phase (ESTABLISHED with met, the others without), and is loaded
otherwise. -/
theorem holdAfter_eq (phase : AirflowPhase) (metNow : Bool) (holdTime : Nat) :
    holdAfter phase metNow holdTime = if metNow = decide (phase = .established) then none else some holdTime := by
  cases phase <;> cases metNow <;> rfl

theorem State.putAnemometer_eq (s : State) (n : AnemometerNo) (a : Anemometer) :
    s.putAnemometer n a = { s with airflow := (s.putAnemometer n a).airflow } := by
  simp only [State.putAnemometer]
  split
  · rfl
  · split <;> rfl

/-- Of the monitor only the table and the hold timer change. -/
theorem State.putAnemometer_airflow (s : State) (n : AnemometerNo) (a : Anemometer) :
    (s.putAnemometer n a).airflow =
      { s.airflow with
        anemometers := s.airflow.anemometers.put n a
        hold := (s.putAnemometer n a).airflow.hold } := by
  simp only [State.putAnemometer]
  split
  · rfl
  · split <;> rfl

@[simp] theorem State.putAnemometer_anemometers (s : State) (n : AnemometerNo) (a : Anemometer) :
    (s.putAnemometer n a).airflow.anemometers = s.airflow.anemometers.put n a := by
  rw [State.putAnemometer_airflow]

@[simp] theorem State.putAnemometer_deadline (s : State) (n : AnemometerNo) (a : Anemometer) :
    (s.putAnemometer n a).airflow.deadline = s.airflow.deadline := by
  rw [State.putAnemometer_airflow]

@[simp] theorem State.putAnemometer_pendingSince (s : State) (n : AnemometerNo) (a : Anemometer) :
    (s.putAnemometer n a).airflow.pendingSince = s.airflow.pendingSince := by
  rw [State.putAnemometer_airflow]

/-- In NORMAL a changed entry leaves the hold timer alone. -/
theorem State.putAnemometer_hold_of_none {s : State} (h : s.incident = none) (n : AnemometerNo) (a : Anemometer) :
    (s.putAnemometer n a).airflow.hold = s.airflow.hold := by
  simp only [State.putAnemometer, h]

/-- Over an incident the hold timer answers a change of met, by the airflow phase. -/
theorem State.putAnemometer_hold_of_some {s : State} {i : Incident} (h : s.incident = some i) (n : AnemometerNo)
    (a : Anemometer) :
    (s.putAnemometer n a).airflow.hold =
      if metFor s.copy (s.putAnemometer n a).airflow i = metFor s.copy s.airflow i then s.airflow.hold
      else holdAfter i.airflow (metFor s.copy (s.putAnemometer n a).airflow i) (Setup.plan s.copy i.plan).hold := by
  have met_after : metFor s.copy (s.putAnemometer n a).airflow i
      = metFor s.copy { s.airflow with anemometers := s.airflow.anemometers.put n a } i :=
    metFor_congr s.copy i (s.putAnemometer_anemometers n a)
  rw [met_after]
  simp only [State.putAnemometer, h]
  split <;> rfl

/-! ### A source goes STALE (R83) -/

/-- Steps 1 to 3 of R83: the source's record has expired and its SOURCE_STALE record is handed. -/
def State.goneStale (s : State) (k : SourceNo) : State :=
  { s with
    sources := s.sources.put k (s.source k).expired
    writer := s.writer.hand (sourceStaleRecord s k (s.source k).freshness (s.source k).expired.staleCount) }

theorem sourceInUse_anemometer (c : Cells Word) {k : Nat} (hlow : 72 ≤ k) (hhigh : k < 80) :
    sourceInUse c k = decide (k - 72 < Setup.anemometerCount c) := by
  unfold sourceInUse
  rw [if_neg (by omega), if_neg (by omega), if_pos hhigh]

theorem State.ageExpiry_of_due {s : State} {k : SourceNo} (hfresh : (s.source k).freshness ≠ .stale)
    (hage : (s.source k).age = some 0) :
    s.ageExpiry k =
      if 72 ≤ k.val ∧ k.val < 80 ∧ sourceInUse s.copy k.val then
        (s.goneStale k).anemometerStale (Fin.ofNat 8 (k.val - 72))
      else s.goneStale k := by
  have due : (s.source k).age.due = true := by rw [hage]; rfl
  unfold State.ageExpiry
  exact if_pos ⟨hfresh, due⟩

/-- The airflow monitor is told of an anemometer in use (R83 step 4). -/
theorem State.ageExpiry_of_anemometer {s : State} {k : SourceNo} {n : AnemometerNo}
    (hfresh : (s.source k).freshness ≠ .stale) (hage : (s.source k).age = some 0) (hk : k.val = 72 + n.val)
    (hn : n.val < Setup.anemometerCount s.copy) : s.ageExpiry k = (s.goneStale k).anemometerStale n := by
  have hlow : 72 ≤ k.val := by omega
  have hhigh : k.val < 80 := by omega
  have index : k.val - 72 = n.val := by omega
  have in_use : sourceInUse s.copy k.val = true := by
    rw [sourceInUse_anemometer s.copy hlow hhigh, index]
    exact decide_eq_true hn
  rw [State.ageExpiry_of_due hfresh hage, if_pos ⟨hlow, hhigh, in_use⟩, index, Fin.ofNat_val_eq_self]

/-- Of every other source no block is told. -/
theorem State.ageExpiry_of_other {s : State} {k : SourceNo} (hfresh : (s.source k).freshness ≠ .stale)
    (hage : (s.source k).age = some 0)
    (hk : k.val < 72 ∨ 80 ≤ k.val ∨ 72 + Setup.anemometerCount s.copy ≤ k.val) : s.ageExpiry k = s.goneStale k := by
  rw [State.ageExpiry_of_due hfresh hage, if_neg]
  rintro ⟨hlow, hhigh, in_use⟩
  rw [sourceInUse_anemometer s.copy hlow hhigh, decide_eq_true_eq] at in_use
  omega

/-- Beyond the source and its record an age expiry changes the airflow monitor at most. -/
theorem State.ageExpiry_frame {s : State} {k : SourceNo} (hfresh : (s.source k).freshness ≠ .stale)
    (hage : (s.source k).age = some 0) : s.ageExpiry k = { s.goneStale k with airflow := (s.ageExpiry k).airflow } := by
  rw [State.ageExpiry_of_due hfresh hage]
  split
  · exact State.putAnemometer_eq _ _ _
  · rfl

/-- The record's detail word: the two fields do not overlap, and neither value is cut (12.4). -/
theorem sourceStaleRecord_eq (s : State) (k : SourceNo) (left : Freshness) {count : Nat} (h : count ≤ 255) :
    sourceStaleRecord s k left count =
      { kind := .sourceStale, stamp := s.stamp, subject := BitVec.ofNat 32 k.val, detailA := 0
        detailB := BitVec.ofNat 32 (left.code + 256 * count) } := by
  have code_field : placed 0 2 left.code = left.code := by cases left <;> rfl
  have count_field : placed 8 8 count = 256 * count := by
    unfold placed
    omega
  rw [sourceStaleRecord, code_field, count_field]
  rfl

theorem State.goneStale_eq (s : State) (k : SourceNo) :
    s.goneStale k = { s with
      sources := s.sources.put k { s.source k with
        freshness := .stale, age := none, staleCount := min 255 ((s.source k).staleCount + 1) }
      writer := s.writer.hand
        { kind := .sourceStale, stamp := s.stamp, subject := BitVec.ofNat 32 k.val, detailA := 0,
          detailB := BitVec.ofNat 32 ((s.source k).freshness.code + 256 * min 255 ((s.source k).staleCount + 1)) } } := by
  have count_le : (s.source k).expired.staleCount ≤ 255 := Nat.min_le_left _ _
  rw [State.goneStale, sourceStaleRecord_eq s k _ count_le]
  rfl

/-! ### AGE_EXPIRY -/

theorem exec_ageExpiry_of_guard {s : State} (h : s.part = .guard) (k : SourceNo) :
    exec (.ageExpiry k) s = .next (s.ageExpiry k) :=
  congrArg _ (inGuard_of h _)

/-- Settles O26: the source's own part is `goneStale`, and the airflow monitor answers by `putAnemometer` exactly when the
source is an anemometer in use. -/
theorem ageExpiryMakesASourceStale : Obligations.AgeExpiryMakesASourceStale := by
  intro k s hguard hfresh hage
  refine ⟨s.ageExpiry k, exec_ageExpiry_of_guard hguard k, ?_, fun hk => ?_, fun n hk hn => ?_⟩
  · have frame := State.ageExpiry_frame hfresh hage
    rw [State.goneStale_eq] at frame
    exact frame
  · rw [State.ageExpiry_of_other hfresh hage hk]
    rfl
  · rw [State.ageExpiry_of_anemometer hfresh hage hk hn]
    refine ⟨State.putAnemometer_anemometers _ _ _, State.putAnemometer_deadline _ _ _,
      State.putAnemometer_pendingSince _ _ _, fun hnone => ?_, fun i hsome => ?_⟩
    · exact State.putAnemometer_hold_of_none (s := s.goneStale k) hnone _ _
    · rw [← holdAfter_eq]
      exact State.putAnemometer_hold_of_some (s := s.goneStale k) hsome _ _

end Sys2Proof.Machine
end

