-- ==== Sys2Proof/Proofs/EscalationStages.lean ====
section
/-! PROOF. The stage timer's expiries (R147, R148): the first stage warns, the second asks for an automatic
declaration. -/

namespace Sys2Proof.Machine

open Sys2Proof

/-! ### The fields the stages read -/

theorem Timer.due_iff (t : Timer) : t.due = true ↔ t = some 0 := beq_iff_eq

theorem bits_low_byte (w : Word) : bits w 7 0 = w.toNat % 256 := by simp [bits]

/-- The default flow stands in the low byte of the segment's word (12.6); a code that is not REV is read as FWD (R140). -/
theorem Setup.defaultFlow_eq (c : Cells Word) (n : Nat) :
    Setup.defaultFlow c n = if (Setup.word c (72 + n)).toNat % 256 = 1 then .rev else .fwd := by
  rw [Setup.defaultFlow, bits_low_byte, Setup.segmentOffset]

/-! ### The stages run out -/

/-- The first stage ends in its warning and the second stage; the alarm list stays as it is (R147). -/
theorem State.t1Expiry_of_due {s : State} {e : AlarmEntry} (hwait : s.alarms.escalation = .waitControl)
    (hstage : s.alarms.stage = some 0) (holdest : s.alarms.oldestUncovered = some e) :
    s.t1Expiry = { s with
      alarms := { s.alarms with escalation := .waitFinal, stage := some (Setup.t2 s.copy) }
      writer := s.writer.hand (escalationFirstRecord s e.segment) } := by
  have due := (Timer.due_iff _).mpr hstage
  unfold State.t1Expiry
  rw [holdest]
  exact if_pos ⟨hwait, due⟩

/-- The second stage ends with every entry covered and the oldest uncovered segment's declaration asked for (R148). -/
theorem State.t2Expiry_of_due {s : State} {e : AlarmEntry} (hwait : s.alarms.escalation = .waitFinal)
    (hstage : s.alarms.stage = some 0) (holdest : s.alarms.oldestUncovered = some e) :
    s.t2Expiry = { s with
      alarms := { s.alarms.coverAndIdle with nextNumber := numberAfter s.alarms.nextNumber }
      autoRequests := s.autoRequests ++
        [{ segment := e.segment.val, flow := Setup.defaultFlow s.copy e.segment.val
           number := s.alarms.nextNumber }] } := by
  have due := (Timer.due_iff _).mpr hstage
  unfold State.t2Expiry
  rw [holdest]
  exact if_pos ⟨hwait, due⟩

/-! ### T1_EXPIRY and T2_EXPIRY -/

theorem exec_t1Expiry_of_guard {s : State} (h : s.part = .guard) : exec .t1Expiry s = .next s.t1Expiry :=
  congrArg _ (inGuard_of h _)

theorem exec_t2Expiry_of_guard {s : State} (h : s.part = .guard) : exec .t2Expiry s = .next s.t2Expiry :=
  congrArg _ (inGuard_of h _)

/-- Settles O49: each stage's claim is its rule above, with the record, the covering and the next number written out; the
default flow is read from the segment table. -/
theorem escalationStagesExpire : Obligations.EscalationStagesExpire := by
  intro x s hguard hstage huncovered
  have oldest : s.alarms.oldestUncovered = some x := huncovered
  refine ⟨fun hcontrol => ?_, fun hfinal => ?_⟩
  · rw [exec_t1Expiry_of_guard hguard, State.t1Expiry_of_due hcontrol hstage oldest]
    rfl
  · rw [exec_t2Expiry_of_guard hguard, State.t2Expiry_of_due hfinal hstage oldest, Setup.defaultFlow_eq]
    rfl

end Sys2Proof.Machine
end

