-- ==== Sys2Proof/Proofs/InterruptLaw.lean ====
section
/-! PROOF. Every step keeps the law of the interrupt output (R193). Six commands touch what the law reads: RESET,
SETUP_WRITE, CLOSE and GUARD_ENTRY leave nothing unread, TAIL_WRITE and RECORD_HEAD_COMPLETION judge the interrupt anew.
Every other command leaves all of it alone. -/

namespace Sys2Proof.Machine

open Sys2Proof

/-! ### What the law reads -/

/-- The fields the law of the interrupt output reads: the part's state, the copy with the class interrupt enables, the
unread classes, the output. -/
def State.interruptFields (s : State) : PartState × Cells Word × List RecordClass × Bool :=
  (s.part, s.copy, s.writer.unread, s.writer.interrupt)

/-- The second state leaves alone what the law reads of the first. -/
def State.sameInterrupt (s t : State) : Prop := t.interruptFields = s.interruptFields

theorem State.sameInterrupt_refl (s : State) : s.sameInterrupt s := rfl

theorem State.sameInterrupt_trans {s t u : State} (h : s.sameInterrupt t) (h' : t.sameInterrupt u) :
    s.sameInterrupt u :=
  Eq.trans h' h

theorem State.interruptLaw_of_sameInterrupt {s t : State} (h : s.sameInterrupt t) (law : s.interruptLaw) :
    t.interruptLaw := by
  simp only [State.sameInterrupt, State.interruptFields, Prod.mk.injEq] at h
  obtain ⟨hpart, hcopy, hunread, hinterrupt⟩ := h
  unfold State.interruptLaw
  rw [hpart, hcopy, hunread, hinterrupt]
  exact law

/-- Nothing is unread and the output is deasserted. -/
def ImageWriter.quiet (w : ImageWriter) : Prop := w.unread = [] ∧ w.interrupt = false

theorem ImageWriter.quiet_reset : ImageWriter.reset.quiet := ⟨rfl, rfl⟩

/-- Whatever the copy enables, with nothing unread the output stays deasserted. -/
theorem State.interruptLaw_of_quiet {s : State} (h : s.writer.quiet) : s.interruptLaw := by
  obtain ⟨hunread, hinterrupt⟩ := h
  refine ⟨fun _ => hunread, ?_⟩
  rw [hunread, hinterrupt]
  rfl

theorem State.quiet_of_interruptLaw {s : State} (law : s.interruptLaw) (hpart : s.part ≠ .guard) :
    s.writer.quiet := by
  obtain ⟨outside, level⟩ := law
  have unread_nil : s.writer.unread = [] := outside hpart
  rw [unread_nil] at level
  exact ⟨unread_nil, level⟩

/-- In GUARD the law holds as soon as the output stands at its judgement. -/
theorem State.interruptLaw_of_judged {s : State} (hpart : s.part = .guard)
    (hlevel : s.writer.interrupt = interruptLevel s.copy s.writer.unread) : s.interruptLaw :=
  ⟨fun hout => absurd hpart hout, hlevel⟩

/-! ### The image writer's operations and the claims on stations -/

theorem State.sameInterrupt_took {s t : State} (hpart : t.part = s.part) (hcopy : t.copy = s.copy)
    (htook : s.writer.took t.writer) : s.sameInterrupt t := by
  have hunread : t.writer.unread = s.writer.unread := by rw [htook]
  have hinterrupt : t.writer.interrupt = s.writer.interrupt := by rw [htook]
  unfold State.sameInterrupt State.interruptFields
  rw [hpart, hcopy, hunread, hinterrupt]

theorem State.sameInterrupt_stationsOnly {s t : State} (h : s.stationsOnly t) : s.sameInterrupt t := by
  obtain ⟨frame, htook⟩ := h
  exact State.sameInterrupt_took (by rw [frame]) (by rw [frame]) htook

theorem State.sameInterrupt_hand (s : State) (l : List ReportRecord) : s.sameInterrupt (s.hand l) :=
  State.sameInterrupt_stationsOnly (s.stationsOnly_hand l)

theorem State.sameInterrupt_finish (s : State) : s.sameInterrupt s.finish := by
  unfold State.sameInterrupt State.interruptFields
  rw [s.finish_part, s.finish_copy, s.finish_writer]

theorem State.sameInterrupt_putAnemometer (s : State) (n : AnemometerNo) (a : Anemometer) :
    s.sameInterrupt (s.putAnemometer n a) := by
  rw [s.putAnemometer_eq]
  rfl

/-! ### Guards and completions -/

theorem inGuard_keeps {P : State → Prop} {s : State} {f : State → State} (h : P s)
    (hf : s.part = .guard → P (f s)) : P (inGuard s f) := by
  unfold inGuard
  split
  · next hpart => exact hf hpart
  · exact h

theorem inCapture_keeps {P : State → Prop} {s : State} {f : State → State} (h : P s)
    (hf : s.part = .capture → P (f s)) : P (inCapture s f) := by
  unfold inCapture
  split
  · next hpart => exact hf hpart
  · exact h

theorem State.sameInterrupt_inGuard {s : State} {f : State → State} (hf : s.sameInterrupt (f s)) :
    s.sameInterrupt (inGuard s f) :=
  inGuard_keeps s.sameInterrupt_refl fun _ => hf

/-- An access completes and its block takes a claim in GUARD. -/
theorem State.sameInterrupt_delivered (s : State) {f : State → State} (hf : ∀ u : State, u.sameInterrupt (f u)) :
    s.sameInterrupt (inGuard s.finish f) :=
  State.sameInterrupt_trans s.sameInterrupt_finish (State.sameInterrupt_inGuard (hf s.finish))

theorem State.interruptLaw_finish {s : State} (law : s.interruptLaw) : s.finish.interruptLaw :=
  State.interruptLaw_of_sameInterrupt s.sameInterrupt_finish law

/-! ### The access path -/

theorem State.sameInterrupt_presentAccess (s : State) (p : Port) (a : PortAccess) :
    s.sameInterrupt (s.presentAccess p a) := by
  unfold State.presentAccess
  dsimp only
  split
  · rfl
  · split <;> rfl

theorem State.sameInterrupt_acceptHeld (s : State) (p : Port) : s.sameInterrupt (s.acceptHeld p) := by
  unfold State.acceptHeld
  split <;> rfl

theorem State.sameInterrupt_disposed (s : State) (p : Port) (w : PortWrite) (rest : List PortWrite) (d : Disposition) :
    s.sameInterrupt (s.disposed p w rest d) := by
  cases d with
  | pass k =>
    simp only [State.disposed, ImageWriter.checkTail]
    split <;> rfl
  | refuse r => exact State.sameInterrupt_hand _ _
  | absorb n =>
    exact State.sameInterrupt_trans (t := s.withPort p { s.port p with buffer := rest }) rfl
      (State.sameInterrupt_stationsOnly (State.stationsOnly_absorbed _ _ _))

theorem State.sameInterrupt_writeDisposition (s : State) (p : Port) : s.sameInterrupt (s.writeDisposition p) := by
  unfold State.writeDisposition
  split
  · rfl
  · split
    · exact s.sameInterrupt_disposed p _ _ _
    · rfl

theorem State.sameInterrupt_commandWrite (s : State) : s.sameInterrupt s.commandWrite := by
  unfold State.commandWrite
  split
  · rfl
  · split
    · exact State.sameInterrupt_inGuard (s.sameInterrupt_writeDisposition .control)
    · rfl

theorem State.sameInterrupt_grantPort (s : State) (p : Port) : s.sameInterrupt (s.grantPort p) := by
  unfold State.grantPort
  dsimp only
  split <;> rfl

theorem State.sameInterrupt_grantRecord (s : State) (r : ReportRecord) (l : List ReportRecord) :
    s.sameInterrupt (s.grantRecord r l) := by
  unfold State.grantRecord
  dsimp only
  split <;> rfl

theorem State.sameInterrupt_grantSnapshot (s : State) (x : Snapshot) : s.sameInterrupt (s.grantSnapshot x) := by
  unfold State.grantSnapshot
  dsimp only
  split <;> rfl

theorem State.sameInterrupt_grantEntryAccess {s t : State} (h : s.grantEntryAccess = some t) : s.sameInterrupt t := by
  unfold State.grantEntryAccess at h
  split at h
  case h_1 => cases h
  case h_2 n rest hlist => cases h; rfl
  case h_3 w rest hlist => cases h; rfl
  case h_4 rest hlist =>
    split at h
    · cases h
    · cases h; exact s.sameInterrupt_grantRecord _ _
  case h_5 rest hlist => cases h
  case h_6 rest hlist => cases h; rfl
  case h_7 r rest hlist => cases h; exact s.sameInterrupt_grantRecord _ _
  case h_8 rest hlist => cases h
  case h_9 rest hlist =>
    obtain ⟨x, hx, rfl⟩ := Option.map_eq_some_iff.mp h
    exact s.sameInterrupt_grantSnapshot x
  case h_10 w rest hlist => cases h; rfl
  case h_11 a w last rest hlist => cases h; rfl

theorem State.sameInterrupt_grantImage {s t : State} (h : s.grantImage = some t) : s.sameInterrupt t := by
  unfold State.grantImage at h
  split at h
  · cases h; rfl
  · exact State.sameInterrupt_grantEntryAccess h

theorem State.sameInterrupt_grantTo {s t : State} {r : Requester} (h : s.grantTo r = some t) : s.sameInterrupt t := by
  cases r with
  | image => exact State.sameInterrupt_grantImage h
  | scanner => cases h; exact s.sameInterrupt_grantPort .scanner
  | control => cases h; exact s.sameInterrupt_grantPort .control

theorem State.sameInterrupt_memoryGrant (s : State) : s.sameInterrupt s.memoryGrant := by
  unfold State.memoryGrant
  split
  · split
    · next t granted =>
      have same : s.sameInterrupt t := State.sameInterrupt_grantTo granted
      exact same
    · rfl
  · rfl
  · rfl

theorem State.sameInterrupt_plainWrite (s : State) : s.sameInterrupt s.plainWrite := by
  unfold State.plainWrite
  split
  · exact s.sameInterrupt_finish
  · exact s.sameInterrupt_finish
  · exact s.sameInterrupt_finish
  · rfl

/-! ### The field: stations, feeders, sources -/

theorem State.sameInterrupt_startTimeout (s : State) (n : StationNo) : s.sameInterrupt (s.startTimeout n) := by
  unfold State.startTimeout
  split
  · exact State.sameInterrupt_stationsOnly (s.stationsOnly_tripStation n _)
  · rfl

theorem State.sameInterrupt_stopTimeout (s : State) (n : StationNo) : s.sameInterrupt (s.stopTimeout n) := by
  unfold State.stopTimeout
  split
  · exact State.sameInterrupt_stationsOnly (s.stationsOnly_moveStation n _ _)
  · rfl

theorem State.sameInterrupt_dwellExpiry (s : State) (n : StationNo) : s.sameInterrupt (s.dwellExpiry n) := by
  unfold State.dwellExpiry
  split
  · split
    · exact State.sameInterrupt_stationsOnly (s.stationsOnly_moveStation n _ _)
    · exact State.sameInterrupt_stationsOnly (s.stationsOnly_moveStation n _ _)
  · rfl

theorem State.sameInterrupt_writeBackCompletion (s : State) : s.sameInterrupt s.writeBackCompletion := by
  unfold State.writeBackCompletion
  split
  · next n _ => exact s.sameInterrupt_delivered fun u => State.sameInterrupt_stationsOnly (u.stationsOnly_confirm n)
  · rfl

theorem State.sameInterrupt_grant (s : State) (f : FeederNo) : s.sameInterrupt (s.grant f) :=
  State.sameInterrupt_stationsOnly (s.stationsOnly_grant f)

theorem State.sameInterrupt_spacingExpiry (s : State) (f : FeederNo) : s.sameInterrupt (s.spacingExpiry f) := by
  unfold State.spacingExpiry
  split <;> rfl

theorem State.sameInterrupt_supplyRestored (s : State) (f : FeederNo) : s.sameInterrupt (s.supplyRestored f) :=
  State.sameInterrupt_took rfl rfl (s.writer.took_hand _)

theorem State.sameInterrupt_restoreExpiry (s : State) (f : FeederNo) : s.sameInterrupt (s.restoreExpiry f) := by
  unfold State.restoreExpiry
  split
  · exact s.sameInterrupt_supplyRestored f
  · rfl

theorem State.sameInterrupt_detectorWord (s : State) (g : SegmentNo) (c : Condition) :
    s.sameInterrupt (s.detectorWord g c) := by
  unfold State.detectorWord
  dsimp only
  split
  · rfl
  · split
    case h_3 => exact State.sameInterrupt_took rfl rfl (s.writer.took_handAll _)
    all_goals exact State.sameInterrupt_took rfl rfl (s.writer.took_hand _)

theorem State.sameInterrupt_receive (s : State) (k : SourceNo) (w : Word) : s.sameInterrupt (s.receive k w) := by
  unfold State.receive
  split
  · exact State.sameInterrupt_stationsOnly (s.stationsOnly_stationWord _ _)
  · split
    · exact State.sameInterrupt_stationsOnly (s.stationsOnly_supplyReport _ _)
    · split
      · exact s.sameInterrupt_putAnemometer _ _
      · exact s.sameInterrupt_detectorWord _ _

/-- Steps 1 to 4 of R81: the source's record is refreshed, and one that was STALE hands its SOURCE_RESTORED record. -/
def State.sourceRefreshed (s : State) (k : SourceNo) : State :=
  let x := s.source k
  let x' := x.written s.tenths (Setup.staleTime s.copy k.val)
  if x.freshness = .stale then (s.putSource k x').hand [sourceRestoredRecord s k x'.lastInterval x.staleCount]
  else s.putSource k x'

theorem State.sourceWritten_eq (s : State) (k : SourceNo) (w : Word) :
    s.sourceWritten k w =
      if sourceInUse s.copy k.val then (s.sourceRefreshed k).receive k w else s.sourceRefreshed k := rfl

theorem State.sameInterrupt_sourceWritten (s : State) (k : SourceNo) (w : Word) :
    s.sameInterrupt (s.sourceWritten k w) := by
  have refreshed : s.sameInterrupt (s.sourceRefreshed k) := by
    unfold State.sourceRefreshed
    dsimp only
    split
    · exact State.sameInterrupt_hand _ _
    · rfl
  rw [State.sourceWritten_eq]
  split
  · exact State.sameInterrupt_trans refreshed (State.sameInterrupt_receive _ k w)
  · exact refreshed

theorem State.sameInterrupt_sourceWrite (s : State) : s.sameInterrupt s.sourceWrite := by
  unfold State.sourceWrite
  split
  · next k _ => exact s.sameInterrupt_delivered fun u => u.sameInterrupt_sourceWritten k _
  · rfl

theorem State.sameInterrupt_ageExpiry (s : State) (k : SourceNo) : s.sameInterrupt (s.ageExpiry k) := by
  have stale : s.sameInterrupt (s.goneStale k) := State.sameInterrupt_took rfl rfl (s.writer.took_hand _)
  unfold State.ageExpiry
  dsimp only
  split
  · split
    · exact State.sameInterrupt_trans stale (State.sameInterrupt_putAnemometer _ _ _)
    · exact stale
  · rfl

/-! ### Incident, airflow and alarms -/

theorem State.sameInterrupt_applyPlan (s : State) (i : Incident) (r : ReportRecord) :
    s.sameInterrupt (s.applyPlan i r) := by
  have claims := State.sameInterrupt_stationsOnly (s.stationsOnly_applyPlan i r)
  exact claims

theorem State.sameInterrupt_presentTargets (s : State) (t : Targets) : s.sameInterrupt (s.presentTargets t) :=
  State.sameInterrupt_stationsOnly (s.stationsOnly_presentTargets t)

theorem State.sameInterrupt_releaseIncident (s : State) (i : Incident) : s.sameInterrupt (s.releaseIncident i) := by
  unfold State.releaseIncident
  refine State.sameInterrupt_trans ?_ (State.sameInterrupt_presentTargets _ _)
  exact State.sameInterrupt_took rfl rfl (s.writer.took_hand _)

theorem State.sameInterrupt_applyBoost (s : State) (i : Incident) : s.sameInterrupt (s.applyBoost i) := by
  unfold State.applyBoost
  refine State.sameInterrupt_trans ?_ (State.sameInterrupt_presentTargets _ _)
  exact State.sameInterrupt_took rfl rfl (s.writer.took_handAll _)

theorem State.sameInterrupt_holdExpiry (s : State) : s.sameInterrupt s.holdExpiry := by
  unfold State.holdExpiry
  split
  · rfl
  · split
    · exact State.sameInterrupt_took rfl rfl (s.writer.took_hand _)
    · rfl

theorem State.sameInterrupt_lossExpiry (s : State) : s.sameInterrupt s.lossExpiry := by
  unfold State.lossExpiry
  split
  · rfl
  · split
    · exact State.sameInterrupt_took rfl rfl (s.writer.took_hand _)
    · rfl

theorem State.sameInterrupt_deadlineExpiry (s : State) : s.sameInterrupt s.deadlineExpiry := by
  unfold State.deadlineExpiry
  split
  · rfl
  · split
    · split
      · exact s.sameInterrupt_applyBoost _
      · exact State.sameInterrupt_took rfl rfl (s.writer.took_hand _)
    · rfl

theorem State.sameInterrupt_automaticDeclaration (s : State) : s.sameInterrupt s.automaticDeclaration := by
  unfold State.automaticDeclaration
  split
  · rfl
  · split
    · exact s.sameInterrupt_applyPlan _ _
    · rfl

theorem State.sameInterrupt_takeReport (s : State) (v : Table Bool 64) (r : AvailabilityReport) :
    s.sameInterrupt (s.takeReport v r) := by
  unfold State.takeReport
  dsimp only
  split
  · exact State.sameInterrupt_trans (t := { s with view := some (v.put r.station r.available) }) rfl
      (State.sameInterrupt_stationsOnly (State.stationsOnly_seekSpare _ _))
  · rfl

theorem State.sameInterrupt_availabilityReport (s : State) : s.sameInterrupt s.availabilityReport := by
  unfold State.availabilityReport
  split
  · rfl
  · next r rest _ =>
    dsimp only
    split
    · split
      · rfl
      · exact State.sameInterrupt_takeReport { s with reports := rest } _ r
    · rfl
    · rfl

theorem State.sameInterrupt_t1Expiry (s : State) : s.sameInterrupt s.t1Expiry := by
  unfold State.t1Expiry
  split
  · rfl
  · split
    · exact State.sameInterrupt_took rfl rfl (s.writer.took_hand _)
    · rfl

theorem State.sameInterrupt_t2Expiry (s : State) : s.sameInterrupt s.t2Expiry := by
  unfold State.t2Expiry
  split
  · rfl
  · split <;> rfl

theorem State.sameInterrupt_declarationAnswer (s : State) : s.sameInterrupt s.declarationAnswer := by
  unfold State.declarationAnswer
  split
  · rfl
  · split
    · rfl
    · exact State.sameInterrupt_took rfl rfl (s.writer.took_hand _)

theorem State.sameInterrupt_declarationNotice (s : State) : s.sameInterrupt s.declarationNotice := by
  unfold State.declarationNotice
  split <;> rfl

/-! ### The mailbox -/

theorem State.sameInterrupt_argumentWrite (s : State) : s.sameInterrupt s.argumentWrite := by
  unfold State.argumentWrite
  split
  · exact s.sameInterrupt_delivered fun _ => rfl
  · rfl

theorem State.sameInterrupt_request (s : State) (ofEvent : Nat → Bool) {take : Nat → State → State}
    (htake : ∀ kind (u : State), u.sameInterrupt (take kind u)) : s.sameInterrupt (s.request ofEvent take) := by
  unfold State.request
  split
  · split
    · exact s.sameInterrupt_delivered (htake _)
    · rfl
  · rfl

/-- A reply joins the work list, which the law does not read. -/
theorem State.sameInterrupt_answered {s : State} {r : State × Answer} (kind : Nat) (h : s.sameInterrupt r.1) :
    s.sameInterrupt (answered kind r) :=
  h

theorem State.sameInterrupt_checked {s : State} {r : State × Answer} (failed : Option Reason)
    (h : s.sameInterrupt r.1) : s.sameInterrupt (checked s failed r).1 := by
  cases failed with
  | none => exact h
  | some reason => rfl

theorem State.sameInterrupt_takeDeclare (s : State) (number segment : Nat) (flow : Dir) :
    s.sameInterrupt (s.takeDeclare number segment flow).1 := by
  unfold State.takeDeclare
  split
  · exact s.sameInterrupt_applyPlan _ _
  · split
    · exact s.sameInterrupt_applyPlan _ _
    · rfl

theorem State.sameInterrupt_takeReplan (s : State) (number segment : Nat) (flow : Dir) :
    s.sameInterrupt (s.takeReplan number segment flow).1 := by
  unfold State.takeReplan
  split
  · rfl
  · split
    · exact s.sameInterrupt_applyPlan _ _
    · rfl

theorem State.sameInterrupt_takeRelease (s : State) (number : Nat) : s.sameInterrupt (s.takeRelease number).1 := by
  unfold State.takeRelease
  split
  · rfl
  · split
    · exact s.sameInterrupt_releaseIncident _
    · rfl

theorem State.sameInterrupt_takeIncident (s : State) (action number segment flow : Nat) :
    s.sameInterrupt (s.takeIncident action number segment flow).1 := by
  unfold State.takeIncident
  apply State.sameInterrupt_checked
  split
  · exact s.sameInterrupt_takeRelease number
  · apply State.sameInterrupt_checked
    split
    · exact s.sameInterrupt_takeDeclare number segment _
    · exact s.sameInterrupt_takeReplan number segment _

theorem State.sameInterrupt_incidentRequest (s : State) (action : Nat) : s.sameInterrupt (s.incidentRequest action) :=
  s.sameInterrupt_request _ fun kind u => State.sameInterrupt_answered kind (u.sameInterrupt_takeIncident _ _ _ _)

theorem State.sameInterrupt_takeAlarmAck (s : State) (segment : Nat) : s.sameInterrupt (s.takeAlarmAck segment).1 := by
  unfold State.takeAlarmAck
  split
  · rfl
  · split
    · split
      · rfl
      · split <;> rfl
    · rfl

theorem State.sameInterrupt_alarmAck (s : State) : s.sameInterrupt s.alarmAck :=
  s.sameInterrupt_request _ fun kind u => State.sameInterrupt_answered kind (u.sameInterrupt_takeAlarmAck _)

theorem State.sameInterrupt_operatorLock (s : State) (n : StationNo) (on : Bool) :
    s.sameInterrupt (s.operatorLock n on) := by
  unfold State.operatorLock
  split
  · rfl
  · exact State.sameInterrupt_stationsOnly (s.stationsOnly_changeLocks n _ _ _)

theorem State.sameInterrupt_takeLock (s : State) (number on : Nat) : s.sameInterrupt (s.takeLock number on).1 := by
  unfold State.takeLock
  split
  · rfl
  · split
    · rfl
    · exact s.sameInterrupt_operatorLock _ _

theorem State.sameInterrupt_lock (s : State) : s.sameInterrupt s.lock :=
  s.sameInterrupt_request _ fun kind u => State.sameInterrupt_answered kind (u.sameInterrupt_takeLock _ _)

theorem State.sameInterrupt_takeTripReset (s : State) (number : Nat) : s.sameInterrupt (s.takeTripReset number).1 := by
  unfold State.takeTripReset
  split
  · rfl
  · split
    · rfl
    · split
      · rfl
      · exact State.sameInterrupt_stationsOnly (s.stationsOnly_moveStation _ _ _)

theorem State.sameInterrupt_tripReset (s : State) : s.sameInterrupt s.tripReset :=
  s.sameInterrupt_request _ fun kind u => State.sameInterrupt_answered kind (u.sameInterrupt_takeTripReset _)

theorem State.sameInterrupt_takeSnapshot (s : State) (low high : Word) :
    s.sameInterrupt (s.takeSnapshot low high).1 := by
  unfold State.takeSnapshot
  split
  · rfl
  · split <;> rfl

theorem State.sameInterrupt_snapshotAnswered (s : State) (kind : Nat) : s.sameInterrupt (s.snapshotAnswered kind) := by
  have taken := s.sameInterrupt_takeSnapshot (s.args.nth 0) (s.args.nth 1)
  unfold State.snapshotAnswered
  dsimp only
  split <;> exact taken

theorem State.sameInterrupt_snapshotRequest (s : State) : s.sameInterrupt s.snapshotRequest :=
  s.sameInterrupt_request _ fun kind u => u.sameInterrupt_snapshotAnswered kind

theorem State.sameInterrupt_unknownRequestKind (s : State) : s.sameInterrupt s.unknownRequestKind :=
  s.sameInterrupt_request _ fun _ _ => rfl

/-! ### The image writer, the read-in and the clock -/

theorem State.sameInterrupt_recordDue (s : State) : s.sameInterrupt s.recordDue := by
  unfold State.recordDue
  split
  · split <;> rfl
  · rfl

theorem State.sameInterrupt_overflowTurn (s : State) : s.sameInterrupt s.overflowTurn := by
  unfold State.overflowTurn
  split
  · split <;> rfl
  · rfl

theorem State.sameInterrupt_snapshotComplete (s : State) : s.sameInterrupt s.snapshotComplete := by
  unfold State.snapshotComplete
  split
  · exact s.sameInterrupt_delivered fun _ => rfl
  · rfl

theorem State.sameInterrupt_readIn (s : State) : s.sameInterrupt s.readIn := by
  unfold State.readIn
  split
  · split
    · exact State.sameInterrupt_trans s.sameInterrupt_finish rfl
    · exact s.sameInterrupt_finish
  · rfl

theorem State.sameInterrupt_timeStampTick (s : State) : s.sameInterrupt s.timeStampTick := by
  unfold State.timeStampTick
  split <;> rfl

/-! ### The six commands that touch what the law reads -/

theorem State.interruptLaw_tailWrite {s : State} (law : s.interruptLaw) : s.tailWrite.interruptLaw := by
  unfold State.tailWrite
  split
  · exact inGuard_keeps (State.interruptLaw_finish law) fun hpart => State.interruptLaw_of_judged hpart rfl
  · exact law

theorem State.interruptLaw_recordHeadCompletion {s : State} (law : s.interruptLaw) :
    s.recordHeadCompletion.interruptLaw := by
  unfold State.recordHeadCompletion
  split
  · exact inGuard_keeps (State.interruptLaw_finish law) fun hpart => State.interruptLaw_of_judged hpart rfl
  · exact law

theorem State.quiet_of_capture {s : State} (law : s.interruptLaw) (hpart : s.part = .capture) : s.writer.quiet :=
  State.quiet_of_interruptLaw law (by rw [hpart]; decide)

/-- A copied write may change the class interrupt enables, but in CAPTURE nothing is unread. -/
theorem State.interruptLaw_setupWrite {s : State} (law : s.interruptLaw) : s.setupWrite.interruptLaw := by
  have completed := State.interruptLaw_finish law
  unfold State.setupWrite
  split
  · refine inCapture_keeps completed fun hpart => State.interruptLaw_of_quiet ?_
    have nothing_unread : s.finish.writer.quiet := State.quiet_of_capture completed hpart
    exact nothing_unread
  · exact law

/-- A close hands work list entries only, whether it succeeds or fails. -/
theorem State.quiet_closeTaken {s : State} (h : s.writer.quiet) (closeValue : Word) :
    (s.closeTaken closeValue).writer.quiet := by
  unfold State.closeTaken
  dsimp only
  split <;> exact h

theorem State.interruptLaw_close {s : State} (law : s.interruptLaw) : s.close.interruptLaw := by
  have completed := State.interruptLaw_finish law
  unfold State.close
  split
  · refine inCapture_keeps completed fun hpart => State.interruptLaw_of_quiet ?_
    exact State.quiet_closeTaken (State.quiet_of_capture completed hpart) _
  · exact law

theorem State.interruptLaw_guardEntry {s : State} (law : s.interruptLaw) : s.guardEntry.interruptLaw := by
  unfold State.guardEntry
  split
  · split
    · exact State.interruptLaw_of_quiet ⟨rfl, rfl⟩
    · exact State.interruptLaw_finish law
  · exact law

theorem State.interruptLaw_resetPart (s : State) : s.resetPart.interruptLaw :=
  State.interruptLaw_of_quiet ImageWriter.quiet_reset

/-! ### Every command -/

theorem Completes.of_sameInterrupt {c : Instr} {s t : State} (law : s.interruptLaw) (hexec : exec c s = .next t)
    (h : s.sameInterrupt t) : Completes c s State.interruptLaw :=
  ⟨t, hexec, State.interruptLaw_of_sameInterrupt h law⟩

/-- A command of GUARD whose meaning leaves alone what the law reads. -/
theorem Completes.of_inGuard {c : Instr} {s : State} {f : State → State} (law : s.interruptLaw)
    (hexec : exec c s = .next (inGuard s f)) (h : s.sameInterrupt (f s)) : Completes c s State.interruptLaw :=
  Completes.of_sameInterrupt law hexec (State.sameInterrupt_inGuard h)

/-- Every command completes in a state that meets the law of the interrupt output. -/
theorem exec_keeps_interruptLaw (c : Instr) {s : State} (law : s.interruptLaw) :
    Completes c s State.interruptLaw := by
  cases c with
  | reset => exact ⟨_, rfl, s.interruptLaw_resetPart⟩
  | setupWrite => exact ⟨_, rfl, State.interruptLaw_setupWrite law⟩
  | close => exact ⟨_, rfl, State.interruptLaw_close law⟩
  | guardEntry => exact ⟨_, rfl, State.interruptLaw_guardEntry law⟩
  | tailWrite => exact ⟨_, rfl, State.interruptLaw_tailWrite law⟩
  | recordHeadCompletion => exact ⟨_, rfl, State.interruptLaw_recordHeadCompletion law⟩
  | portWrite p a => exact Completes.of_sameInterrupt law rfl (s.sameInterrupt_presentAccess p a)
  | heldWriteAccepted p => exact Completes.of_sameInterrupt law rfl (s.sameInterrupt_acceptHeld p)
  | writeDisposition p => exact Completes.of_sameInterrupt law rfl (s.sameInterrupt_writeDisposition p)
  | commandWrite => exact Completes.of_sameInterrupt law rfl (s.sameInterrupt_commandWrite)
  | memoryGrant => exact Completes.of_sameInterrupt law rfl (s.sameInterrupt_memoryGrant)
  | plainWrite => exact Completes.of_sameInterrupt law rfl (s.sameInterrupt_plainWrite)
  | sourceWrite => exact Completes.of_sameInterrupt law rfl (s.sameInterrupt_sourceWrite)
  | argumentWrite => exact Completes.of_sameInterrupt law rfl (s.sameInterrupt_argumentWrite)
  | declare => exact Completes.of_sameInterrupt law rfl (s.sameInterrupt_incidentRequest actionDeclare)
  | replan => exact Completes.of_sameInterrupt law rfl (s.sameInterrupt_incidentRequest actionReplan)
  | release => exact Completes.of_sameInterrupt law rfl (s.sameInterrupt_incidentRequest actionRelease)
  | alarmAck => exact Completes.of_sameInterrupt law rfl (s.sameInterrupt_alarmAck)
  | lock => exact Completes.of_sameInterrupt law rfl (s.sameInterrupt_lock)
  | tripReset => exact Completes.of_sameInterrupt law rfl (s.sameInterrupt_tripReset)
  | snapshot => exact Completes.of_sameInterrupt law rfl (s.sameInterrupt_snapshotRequest)
  | unknownRequestKind => exact Completes.of_sameInterrupt law rfl (s.sameInterrupt_unknownRequestKind)
  | writeBackCompletion => exact Completes.of_sameInterrupt law rfl (s.sameInterrupt_writeBackCompletion)
  | snapshotComplete => exact Completes.of_sameInterrupt law rfl (s.sameInterrupt_snapshotComplete)
  | readIn => exact Completes.of_sameInterrupt law rfl (s.sameInterrupt_readIn)
  | writeHeldAtPort p a => exact Completes.of_sameInterrupt law rfl (s.sameInterrupt_presentAccess p a)
  | timeStampTick => exact Completes.of_inGuard law rfl (s.sameInterrupt_timeStampTick)
  | recordDue => exact Completes.of_inGuard law rfl (s.sameInterrupt_recordDue)
  | overflow => exact Completes.of_inGuard law rfl (s.sameInterrupt_overflowTurn)
  | grant f => exact Completes.of_inGuard law rfl (s.sameInterrupt_grant f)
  | startTimeout n => exact Completes.of_inGuard law rfl (s.sameInterrupt_startTimeout n)
  | stopTimeoutExpiry n => exact Completes.of_inGuard law rfl (s.sameInterrupt_stopTimeout n)
  | dwellExpiry n => exact Completes.of_inGuard law rfl (s.sameInterrupt_dwellExpiry n)
  | spacingExpiry f => exact Completes.of_inGuard law rfl (s.sameInterrupt_spacingExpiry f)
  | restoreExpiry f => exact Completes.of_inGuard law rfl (s.sameInterrupt_restoreExpiry f)
  | ageExpiry k => exact Completes.of_inGuard law rfl (s.sameInterrupt_ageExpiry k)
  | holdExpiry => exact Completes.of_inGuard law rfl (s.sameInterrupt_holdExpiry)
  | lossExpiry => exact Completes.of_inGuard law rfl (s.sameInterrupt_lossExpiry)
  | deadlineExpiry => exact Completes.of_inGuard law rfl (s.sameInterrupt_deadlineExpiry)
  | t1Expiry => exact Completes.of_inGuard law rfl (s.sameInterrupt_t1Expiry)
  | t2Expiry => exact Completes.of_inGuard law rfl (s.sameInterrupt_t2Expiry)
  | automaticDeclaration => exact Completes.of_inGuard law rfl (s.sameInterrupt_automaticDeclaration)
  | declarationAnswer => exact Completes.of_inGuard law rfl (s.sameInterrupt_declarationAnswer)
  | declarationNotice => exact Completes.of_inGuard law rfl (s.sameInterrupt_declarationNotice)
  | availabilityReport => exact Completes.of_inGuard law rfl (s.sameInterrupt_availabilityReport)

/-- Settles O58: the law does not read the queue, so it holds of the state the command at its front runs on; that
command keeps it, and with no command the part idles. -/
theorem everyStepKeepsTheInterruptLaw : Obligations.EveryStepKeepsTheInterruptLaw := by
  intro s t law hstep
  unfold step at hstep
  split at hstep
  · cases hstep
    exact law
  · next c rest _ =>
    have law_of_rest : State.interruptLaw { s with pending := rest } := law
    obtain ⟨u, hexec, kept⟩ := exec_keeps_interruptLaw c law_of_rest
    rw [hexec] at hstep
    cases hstep
    exact kept

end Sys2Proof.Machine
end

section
/-! PROOF. What a command can do, said once for every law: parts that no station takes (`Aside`), around one part that
acts (`Act`). A law that both keep, every step keeps. -/

namespace Sys2Proof.Machine

open Sys2Proof

/-! ### The parts of a command that no station takes -/

/-- The completions that move the report ring: a tail write's and a head write's (R190, R191). -/
def Owner.movesRing : Owner → Bool
  | .port .tail => true
  | .recordHead _ => true
  | .port .plain | .port (.source _) | .port (.argument _) | .port .request | .port .setup | .port .close => false
  | .portRead _ | .none | .station _ | .snapshotEnd | .readIn _ | .enteringEnd => false

/-- Only fields that no law of the model reads differ, beside memory in its form and an access that completed. -/
structure State.quiet (s t : State) : Prop where
  frame : t = { s with
    turns := t.turns, mem := t.mem, closeCount := t.closeCount, inFlight := t.inFlight, args := t.args
    requestCount := t.requestCount, sources := t.sources, view := t.view, reports := t.reports
    autoRequests := t.autoRequests, answers := t.answers, notices := t.notices, airflow := t.airflow }
  mem : Memory.wf s.mem = true → Memory.wf t.mem = true
  flight : t.inFlight = s.inFlight
    ∨ t.inFlight = none ∧ (s.part = .guard → ∀ o, s.flightOwner = some o → o.movesRing = false)

/-- A part of a command that moves no station and grants nothing. -/
inductive Aside : State → State → Prop
  | quiet {s t : State} (h : s.quiet t) : Aside s t
  | hand (s : State) (r : ReportRecord) (hg : s.part = .guard) : Aside s { s with writer := s.writer.hand r }
  | reply (s : State) (w : Word) (hg : s.part = .guard) : Aside s { s with writer := s.writer.append (.reply w) }
  | supply (s : State) (f : FeederNo) (fd : Feeder) (hq : fd.queue = (s.feeder f).queue)
      (hs : fd.slotsInUse = (s.feeder f).slotsInUse) : Aside s (s.putFeeder f fd)
  | phase (s : State) (i : Incident) (x : AirflowPhase) (h : s.incident = some i) :
      Aside s { s with incident := some { i with airflow := x } }
  | alarms (s : State) (a : AlarmEscalator) (h : s.alarms.law → a.law) : Aside s { s with alarms := a }
  | port (s : State) (p : Port) (x : PortState) (hd : x.disposed = (s.port p).disposed)
      (hb : x.buffer = (s.port p).buffer ∨ (s.port p).buffer.length < 8 ∧ ∃ w, x.buffer = (s.port p).buffer ++ [w]) :
      Aside s (s.withPort p x)
  | pop (s : State) (p : Port) (w : PortWrite) (rest : List PortWrite) (hg : s.part = .guard)
      (hb : (s.port p).buffer = w :: rest) (hd : (s.port p).disposed = none) :
      Aside s (s.withPort p { s.port p with buffer := rest })

/-- Parts that move no station, one after the other. -/
abbrev Asides : State → State → Prop := Relation.ReflTransGen Aside

/-! ### The part that acts -/

/-- One event of one station's own, taken in GUARD. -/
inductive Move : State → State → Prop
  | grant (s : State) (f : FeederNo) : Move s (s.grant f)
  | word (s : State) (n : StationNo) (o : Observed) : Move s (s.stationWord n o)
  | startTimeout (s : State) (n : StationNo) : Move s (s.startTimeout n)
  | stopTimeout (s : State) (n : StationNo) : Move s (s.stopTimeout n)
  | dwellExpiry (s : State) (n : StationNo) : Move s (s.dwellExpiry n)
  | confirm (s : State) (n : StationNo) : Move s (s.confirm n)
  | lock (s : State) (n : StationNo) (on : Bool) : Move s (s.operatorLock n on)
  | tripCleared (s : State) (n : StationNo) (h : (s.station n).state = .tripped) :
      Move s (s.moveStation n ((s.station n).tripCleared (s.static n).dwell) [])

/-- What the stations take in GUARD: an event of one's own, or claims at several. -/
inductive Claims : State → State → Prop
  | move {s t : State} (m : Move s t) : Claims s t
  | absorbed (s : State) (n : StationNo) (c : FanCommand) : Claims s (s.absorbed n c)
  | plan (s : State) (i : Incident) (r : ReportRecord) (hb : i.boost = false) : Claims s (s.applyPlan i r)
  | release (s : State) (i : Incident) : Claims s (s.releaseIncident i)
  | boost (s : State) (i : Incident) (hi : s.incident = some i) : Claims s (s.applyBoost i)
  | seek (s : State) (i : Incident) (o : StationNo) (hi : s.incident = some i)
      (hrun : isRun (s.station o).target = true) : Claims s (s.seekSpare o)

/-- The state after a snapshot is taken: its reply and its entry join the work list (R194). -/
def State.snapshotTaken (s : State) (x : Snapshot) (reply : Word) : State :=
  { s with writer := { s.writer with
      snapshot := some x, ordinal := s.writer.ordinal + 1
      workList := s.writer.workList ++ [.reply reply] ++ [.snapshot] } }

/-- The part of a command that acts on the stations, the plan, the clock, the memory port, the ring or the part as a
whole. -/
inductive Act : State → State → Prop
  | stay (s : State) : Act s s
  | claims {s t : State} (hg : s.part = .guard) (h : Claims s t) : Act s t
  | tick (s : State) (hg : s.part = .guard) (h : s.expiryDue = false) : Act s s.tick
  | pass (s : State) (p : Port) (w : PortWrite) (rest : List PortWrite) (k : PassKind) (hb : (s.port p).buffer = w :: rest)
      (hd : (s.port p).disposed = none) (hk : s.disposition p w = .pass k) : Act s (s.disposed p w rest (.pass k))
  | memoryGrant {s t : State} {r : Requester} (hf : s.inFlight = none) (hw : s.winner = some r)
      (ht : s.grantTo r = some t) : Act s { t with arbiter := s.arbiterAfter r }
  | tail (s : State) (hg : s.part = .guard) (ho : s.flightOwner = some (.port .tail)) :
      Act s (s.finish.tailMoved s.flightData.toNat)
  | recordHead (s : State) (cls : RecordClass) (hg : s.part = .guard) (ho : s.flightOwner = some (.recordHead cls)) :
      Act s (s.finish.recordRead cls)
  | recordDue (s : State) (hg : s.part = .guard) : Act s s.recordDue
  | overflow (s : State) (hg : s.part = .guard) : Act s s.overflowTurn
  | snapshotDone (s : State) (hg : s.part = .guard) (ho : s.flightOwner = some .snapshotEnd) :
      Act s { s.finish with writer := { s.finish.writer with snapshot := none } }
  | snapshotTaken (s : State) (x : Snapshot) (reply : Word) (hg : s.part = .guard) (hx : s.writer.snapshot = none)
      (hf : s.inFlight = none) : Act s (s.snapshotTaken x reply)
  | copied (s : State) (c : Cells Word) (hp : s.part = .capture) (hc : Cells.wf 0 s.copy = true → Cells.wf 0 c = true) :
      Act s { s with copy := c }
  | closeFails (s : State) (code : SetupCode) (k : Nat) (hp : s.part = .capture) : Act s (s.closeFails code k)
  | closeSucceeds (s : State) (d : Word) (hp : s.part = .capture) (h : Setup.closeFault s.copy d = none) :
      Act s s.closeSucceeds
  | readIn (s : State) (n : StationNo) (w : Word) (hp : s.part = .entering) : Act s (s.readInStation n w)
  | guardEntry (s : State) (hp : s.part = .entering) (hf : s.inFlight = none) : Act s s.enterGuard
  | reset (s : State) : Act s s.resetPart

/-- What a command does: one part that acts, with parts around it that move no station. -/
def Effect (s t : State) : Prop := ∃ u v, Asides s u ∧ Act u v ∧ Asides v t

theorem Effect.of_act {s t : State} (h : Act s t) : Effect s t := ⟨s, t, .refl, h, .refl⟩

theorem Effect.of_asides {s t : State} (h : Asides s t) : Effect s t := ⟨s, s, .refl, .stay s, h⟩

theorem Effect.refl (s : State) : Effect s s := Effect.of_asides .refl

theorem Effect.before {s u t : State} (h : Asides s u) (h' : Effect u t) : Effect s t := by
  obtain ⟨a, b, ha, act, hb⟩ := h'
  exact ⟨a, b, h.trans ha, act, hb⟩

theorem Effect.after {s u t : State} (h : Effect s u) (h' : Asides u t) : Effect s t := by
  obtain ⟨a, b, ha, act, hb⟩ := h
  exact ⟨a, b, ha, act, hb.trans h'⟩

theorem Effect.of_move {s t : State} (hg : s.part = .guard) (m : Move s t) : Effect s t := Effect.of_act (.claims hg (.move m))

/-- What every part keeps, a command keeps. -/
theorem Effect.keeps {P : State → Prop} (haside : ∀ {s t}, Aside s t → P s → P t) (hact : ∀ {s t}, Act s t → P s → P t)
    {s t : State} (h : Effect s t) (hs : P s) : P t := by
  obtain ⟨u, v, hu, act, hv⟩ := h
  have asides_keep : ∀ {a b : State}, Asides a b → P a → P b := fun hab ha => by
    induction hab with
    | refl => exact ha
    | tail _ step ih => exact haside step ih
  exact asides_keep hv (hact act (asides_keep hu hs))

/-! ### Asides of the shared operations -/

theorem State.quiet_of_eq {s t : State} (hm : t.mem = s.mem) (hf : t.inFlight = s.inFlight)
    (h : t = { s with
      turns := t.turns, mem := t.mem, closeCount := t.closeCount, inFlight := t.inFlight, args := t.args
      requestCount := t.requestCount, sources := t.sources, view := t.view, reports := t.reports
      autoRequests := t.autoRequests, answers := t.answers, notices := t.notices, airflow := t.airflow }) : s.quiet t :=
  ⟨h, fun hs => by rw [hm]; exact hs, .inl hf⟩

/-- A state that differs only in fields no law reads. -/
theorem Asides.of_quiet {s t : State} (h : s.quiet t) : Asides s t := .single (.quiet h)

theorem Asides.finish (s : State) (h : s.part = .guard → ∀ o, s.flightOwner = some o → o.movesRing = false) :
    Asides s s.finish :=
  .of_quiet ⟨by rw [s.finish_eq], s.wf_finish, .inr ⟨s.finish_inFlight, h⟩⟩

theorem Asides.finish_of_owner (s : State) {o : Owner} (h : s.flightOwner = some o) (ho : o.movesRing = false) :
    Asides s s.finish :=
  Asides.finish s fun _ o' h' => by rw [h] at h'; cases h'; exact ho

theorem Asides.hand (s : State) (r : ReportRecord) (hg : s.part = .guard) :
    Asides s { s with writer := s.writer.hand r } := .single (.hand s r hg)

theorem Asides.handAll (s : State) (l : List ReportRecord) (hg : s.part = .guard) : Asides s (s.hand l) := by
  induction l generalizing s with
  | nil => exact .refl
  | cons r rest ih => exact (Asides.hand s r hg).trans (ih { s with writer := s.writer.hand r } hg)

theorem Asides.reply (s : State) (kind : Nat) (a : Answer) (hg : s.part = .guard) : Asides s (s.reply kind a) :=
  .head (.reply s _ hg) (Asides.of_quiet (State.quiet_of_eq rfl rfl rfl))

theorem Asides.supply (s : State) (f : FeederNo) (fd : Feeder) (hq : fd.queue = (s.feeder f).queue)
    (hs : fd.slotsInUse = (s.feeder f).slotsInUse) : Asides s (s.putFeeder f fd) := .single (.supply s f fd hq hs)

/-- A command of GUARD. -/
theorem Effect.inGuard {s : State} {f : State → State} (h : s.part = .guard → Effect s (f s)) :
    Effect s (inGuard s f) :=
  inGuard_keeps (Effect.refl s) h

/-- An access of a block that leaves the ring alone completes, and its block takes it in GUARD. -/
theorem Effect.delivered (s : State) {o : Owner} {f : State → State} (ho : s.flightOwner = some o)
    (hring : o.movesRing = false) (h : s.finish.part = .guard → Effect s.finish (f s.finish)) :
    Effect s (Machine.inGuard s.finish f) :=
  Effect.before (Asides.finish_of_owner s ho hring) (Effect.inGuard h)

/-! ### The ports -/

theorem PortState.take_buffer (x : PortState) (a : PortAccess) :
    (x.take a).disposed = x.disposed
      ∧ ((x.take a).buffer = x.buffer ∨ x.buffer.length < 8 ∧ ∃ w, (x.take a).buffer = x.buffer ++ [w]) := by
  cases a with
  | read a => exact ⟨rfl, .inl rfl⟩
  | write w =>
    simp only [PortState.take]
    split
    · next hroom =>
      have room : x.buffer.length < 8 := of_decide_eq_true hroom
      exact ⟨rfl, .inr ⟨room, w, rfl⟩⟩
    · exact ⟨rfl, .inl rfl⟩

theorem PortState.release_buffer (x : PortState) :
    x.release.disposed = x.disposed
      ∧ (x.release.buffer = x.buffer ∨ x.buffer.length < 8 ∧ ∃ w, x.release.buffer = x.buffer ++ [w]) := by
  unfold PortState.release
  split
  · exact ⟨rfl, .inl rfl⟩
  · next w _ =>
    split
    · next hroom =>
      have room : x.buffer.length < 8 := of_decide_eq_true hroom
      exact ⟨rfl, .inr ⟨room, w, rfl⟩⟩
    · exact ⟨rfl, .inl rfl⟩
  · split <;> exact ⟨rfl, .inl rfl⟩

theorem State.effect_presentAccess (s : State) (p : Port) (a : PortAccess) : Effect s (s.presentAccess p a) := by
  unfold State.presentAccess
  dsimp only
  split
  · exact Effect.refl s
  · split
    · exact Effect.of_asides (.single (.port s p _ rfl (.inl rfl)))
    · obtain ⟨hd, hb⟩ := (s.port p).take_buffer a
      exact Effect.of_asides (.single (.port s p _ hd hb))

theorem State.effect_acceptHeld (s : State) (p : Port) : Effect s (s.acceptHeld p) := by
  unfold State.acceptHeld
  split
  · exact Effect.refl s
  · obtain ⟨hd, hb⟩ := (s.port p).release_buffer
    exact Effect.of_asides (.single (.port s p _ hd hb))

theorem State.captureDisposition_passes (p : Port) (w : PortWrite) : ∃ k, captureDisposition p w = .pass k := by
  cases p with
  | scanner => exact ⟨_, rfl⟩
  | control =>
    unfold captureDisposition
    dsimp only
    split
    · exact ⟨_, rfl⟩
    · split <;> exact ⟨_, rfl⟩

/-- Only GUARD refuses or absorbs a write (R172). -/
theorem State.guard_of_disposition (s : State) (p : Port) (w : PortWrite) (h : ∀ k, s.disposition p w ≠ .pass k) :
    s.part = .guard := by
  by_contra hpart
  obtain ⟨k, hk⟩ := State.captureDisposition_passes p w
  exact h k (by rw [State.disposition, if_neg hpart, hk])

theorem State.effect_writeDisposition (s : State) (p : Port) : Effect s (s.writeDisposition p) := by
  unfold State.writeDisposition
  split
  · exact Effect.refl s
  · next w rest hbuf =>
    split
    · next hopen =>
      obtain ⟨-, hnone⟩ := hopen
      cases hdisp : s.disposition p w with
      | pass k => exact Effect.of_act (.pass s p w rest k hbuf hnone hdisp)
      | refuse r =>
        have hg : s.part = .guard := s.guard_of_disposition p w (by rw [hdisp]; intro k; exact nofun)
        exact Effect.of_asides ((Relation.ReflTransGen.single (.pop s p w rest hg hbuf hnone)).trans
          (Asides.handAll _ _ hg))
      | absorb n =>
        have hg : s.part = .guard := s.guard_of_disposition p w (by rw [hdisp]; intro k; exact nofun)
        exact Effect.before (.single (.pop s p w rest hg hbuf hnone)) (Effect.of_act (.claims hg (.absorbed _ n _)))
    · exact Effect.refl s

theorem State.effect_commandWrite (s : State) : Effect s s.commandWrite := by
  unfold State.commandWrite
  split
  · exact Effect.refl s
  · split
    · exact Effect.inGuard fun _ => s.effect_writeDisposition .control
    · exact Effect.refl s

theorem State.effect_memoryGrant (s : State) : Effect s s.memoryGrant := by
  unfold State.memoryGrant
  split
  · next r hfree hwin =>
    split
    · next t granted => exact Effect.of_act (.memoryGrant hfree hwin granted)
    · exact Effect.refl s
  · exact Effect.refl s
  · exact Effect.refl s

theorem State.effect_plainWrite (s : State) : Effect s s.plainWrite := by
  unfold State.plainWrite
  split
  · next ho => exact Effect.of_asides (Asides.finish_of_owner s ho rfl)
  · next ho => exact Effect.of_asides (Asides.finish_of_owner s ho rfl)
  · next p ho =>
    exact Effect.of_asides ((Asides.finish_of_owner s ho rfl).trans (.single (.port _ p _ rfl (.inl rfl))))
  · exact Effect.refl s

/-! ### The field -/

theorem State.effect_writeBackCompletion (s : State) : Effect s s.writeBackCompletion := by
  unfold State.writeBackCompletion
  split
  · next n ho => exact Effect.delivered s ho rfl fun hg => Effect.of_move hg (.confirm _ n)
  · exact Effect.refl s

/-- A feeder's supply and timers change with a record and reports; slots and queue stay. -/
theorem Asides.supplied (s : State) (f : FeederNo) (fd : Feeder) (r : ReportRecord) (l : List AvailabilityReport)
    (hq : fd.queue = (s.feeder f).queue) (hs : fd.slotsInUse = (s.feeder f).slotsInUse) (hg : s.part = .guard) :
    Asides s { s with feeders := s.feeders.put f fd, writer := s.writer.hand r, reports := l } :=
  ((Asides.supply s f fd hq hs).trans (Asides.hand (s.putFeeder f fd) r hg)).trans
    (Asides.of_quiet (State.quiet_of_eq rfl rfl rfl))

theorem State.asides_supplyReport (s : State) (f : FeederNo) (present : Bool) (hg : s.part = .guard) :
    Asides s (s.supplyReport f present) := by
  unfold State.supplyReport
  split
  · exact .refl
  · exact Asides.supplied s f _ _ _ rfl rfl hg
  · split
    · exact Asides.supplied s f _ _ _ rfl rfl hg
    · exact Asides.supply s f _ rfl rfl
  · exact .refl
  · exact .refl
  · exact Asides.supplied s f _ _ _ rfl rfl hg

theorem State.asides_spacingExpiry (s : State) (f : FeederNo) : Asides s (s.spacingExpiry f) := by
  unfold State.spacingExpiry
  split
  · exact Asides.supply s f _ rfl rfl
  · exact .refl

theorem State.asides_restoreExpiry (s : State) (f : FeederNo) (hg : s.part = .guard) :
    Asides s (s.restoreExpiry f) := by
  unfold State.restoreExpiry
  split
  · exact Asides.supplied s f _ _ _ rfl rfl hg
  · exact .refl

theorem State.asides_putAnemometer (s : State) (n : AnemometerNo) (a : Anemometer) :
    Asides s (s.putAnemometer n a) := by
  rw [s.putAnemometer_eq]
  exact Asides.of_quiet (State.quiet_of_eq rfl rfl rfl)

/-- A segment's condition changes, with the alarm list and the stages as the law asks, and records are handed. -/
theorem Asides.alarmed (s : State) (a : AlarmEscalator) (l : List ReportRecord) (hlaw : s.alarms.law → a.law)
    (hg : s.part = .guard) : Asides s { s with alarms := a, writer := s.writer.handAll l } :=
  .head (.alarms s a hlaw) (Asides.handAll { s with alarms := a } l hg)

/-- Steps 1 to 4 of R81 move no station. -/
theorem State.asides_sourceRefreshed (s : State) (k : SourceNo) (hg : s.part = .guard) :
    Asides s (s.sourceRefreshed k) := by
  have refreshed : ∀ x, Asides s (s.putSource k x) := fun x => Asides.of_quiet (State.quiet_of_eq rfl rfl rfl)
  unfold State.sourceRefreshed
  dsimp only
  split
  · exact (refreshed _).trans (Asides.handAll _ _ hg)
  · exact refreshed _

theorem State.asides_ageExpiry (s : State) (k : SourceNo) (hg : s.part = .guard) : Asides s (s.ageExpiry k) := by
  have stale : Asides s (s.goneStale k) :=
    (Asides.hand s _ hg).trans (Asides.of_quiet (State.quiet_of_eq rfl rfl rfl))
  unfold State.ageExpiry
  dsimp only
  split
  · split
    · exact stale.trans (State.asides_putAnemometer _ _ _)
    · exact stale
  · exact .refl

/-! ### Incident and airflow -/

/-- The airflow state, the monitor and a record of it. -/
theorem Asides.airflowMoved (s : State) (i : Incident) (x : AirflowPhase) (m : AirflowMonitor) (r : ReportRecord)
    (hi : s.incident = some i) (hg : s.part = .guard) :
    Asides s { s with incident := some { i with airflow := x }, airflow := m, writer := s.writer.hand r } :=
  .head (.phase s i x hi) ((Asides.hand { s with incident := some { i with airflow := x } } r hg).trans
    (Asides.of_quiet (State.quiet_of_eq rfl rfl rfl)))

theorem State.asides_holdExpiry (s : State) (hg : s.part = .guard) : Asides s s.holdExpiry := by
  unfold State.holdExpiry
  split
  · exact .refl
  · next i hi =>
    split
    · exact Asides.airflowMoved s i _ _ _ hi hg
    · exact .refl

theorem State.asides_lossExpiry (s : State) (hg : s.part = .guard) : Asides s s.lossExpiry := by
  unfold State.lossExpiry
  split
  · exact .refl
  · next i hi =>
    split
    · exact Asides.airflowMoved s i _ _ _ hi hg
    · exact .refl

theorem State.effect_deadlineExpiry (s : State) (hg : s.part = .guard) : Effect s s.deadlineExpiry := by
  unfold State.deadlineExpiry
  split
  · exact Effect.refl s
  · next i hi =>
    split
    · split
      · exact Effect.of_act (.claims hg (.boost s i hi))
      · exact Effect.of_asides (Asides.airflowMoved s i _ _ _ hi hg)
    · exact Effect.refl s

theorem State.effect_automaticDeclaration (s : State) (hg : s.part = .guard) : Effect s s.automaticDeclaration := by
  unfold State.automaticDeclaration
  split
  · exact Effect.refl s
  · next r rest _ =>
    split
    · have declared : Effect s (s.declareIncident r.number .automatic r.segment r.flow) :=
        Effect.of_act (.claims hg (.plan s _ _ rfl))
      exact declared.after (Asides.of_quiet (State.quiet_of_eq rfl rfl rfl))
    · exact Effect.of_asides (Asides.of_quiet (State.quiet_of_eq rfl rfl rfl))

theorem State.effect_takeReport (s : State) (v : Table Bool 64) (r : AvailabilityReport) (i : Incident)
    (hi : s.incident = some i) (hg : s.part = .guard) : Effect s (s.takeReport v r) := by
  have seen : Asides s { s with view := some (v.put r.station r.available) } :=
    Asides.of_quiet (State.quiet_of_eq rfl rfl rfl)
  unfold State.takeReport
  dsimp only
  split
  · next hseek =>
    simp only [Bool.and_eq_true] at hseek
    obtain ⟨⟨-, hrun⟩, -⟩ := hseek
    exact Effect.before seen (Effect.of_act (.claims hg (.seek _ i r.station hi hrun)))
  · exact Effect.of_asides seen

theorem State.effect_availabilityReport (s : State) (hg : s.part = .guard) : Effect s s.availabilityReport := by
  unfold State.availabilityReport
  split
  · exact Effect.refl s
  · next r rest _ =>
    have taken : Asides s { s with reports := rest } := Asides.of_quiet (State.quiet_of_eq rfl rfl rfl)
    dsimp only
    split
    · next i v hi _ =>
      split
      · exact Effect.of_asides taken
      · exact Effect.before taken (State.effect_takeReport _ v r i hi hg)
    · exact Effect.of_asides taken
    · exact Effect.of_asides taken

end Sys2Proof.Machine
end

section
/-! PROOF. The alarm list and the escalation keep their law (R141, R146, R150) in every event of the escalator. -/

namespace Sys2Proof.Machine

open Sys2Proof

/-! ### Segments listed and entries uncovered -/

/-- A segment is listed exactly while its condition is ALARM, and once (R141). -/
def AlarmEscalator.listed (a : AlarmEscalator) : Prop :=
  (∀ g, a.conditions.nth g = .alarm ↔ g ∈ a.alarmList.map AlarmEntry.segment)
    ∧ (a.alarmList.map AlarmEntry.segment).Nodup

/-- An UNCOVERED entry stands in a list. -/
def hasUncovered (l : List AlarmEntry) : Prop := ∃ e ∈ l, e.covering = .uncovered

theorem AlarmEscalator.law_iff (a : AlarmEscalator) :
    a.law ↔ a.listed ∧ (a.escalation ≠ .idle ↔ hasUncovered a.alarmList) ∧ (a.stage ≠ none ↔ a.escalation ≠ .idle) := by
  unfold AlarmEscalator.law AlarmEscalator.listed hasUncovered
  rw [and_assoc]

/-- IDLE, with no timer and nothing uncovered. -/
theorem AlarmEscalator.law_of_idle {a : AlarmEscalator} (hl : a.listed) (he : a.escalation = .idle) (hs : a.stage = none)
    (hu : ¬hasUncovered a.alarmList) : a.law :=
  a.law_iff.mpr ⟨hl, by simp [he, hu], by simp [he, hs]⟩

/-- A stage under way, with its timer and an entry uncovered. -/
theorem AlarmEscalator.law_of_waiting {a : AlarmEscalator} (hl : a.listed) (he : a.escalation ≠ .idle)
    (hs : a.stage ≠ none) (hu : hasUncovered a.alarmList) : a.law :=
  a.law_iff.mpr ⟨hl, by simp [he, hu], by simp [he, hs]⟩

theorem AlarmEscalator.uncoveredCount_eq_zero (a : AlarmEscalator) :
    a.uncoveredCount = 0 ↔ ¬hasUncovered a.alarmList := by
  simp [AlarmEscalator.uncoveredCount, AlarmEntry.uncovered, hasUncovered]

theorem segments_coverAll (l : List AlarmEntry) : (coverAll l).map AlarmEntry.segment = l.map AlarmEntry.segment := by
  unfold coverAll
  rw [List.map_map]
  refine List.map_congr_left fun e _ => ?_
  dsimp only [Function.comp]
  split <;> rfl

theorem not_hasUncovered_coverAll (l : List AlarmEntry) : ¬hasUncovered (coverAll l) := by
  rintro ⟨e, he, hu⟩
  obtain ⟨x, -, rfl⟩ := List.mem_map.mp he
  split at hu
  · cases hu
  · next hx => exact hx hu

theorem segments_ackEntry (l : List AlarmEntry) (g : SegmentNo) :
    (ackEntry l g).map AlarmEntry.segment = l.map AlarmEntry.segment := by
  unfold ackEntry
  rw [List.map_map]
  refine List.map_congr_left fun e _ => ?_
  dsimp only [Function.comp]
  split <;> rfl

/-! ### The escalator's events -/

/-- Every entry covered and the escalator in IDLE (R149, R151). -/
theorem AlarmEscalator.law_coverAndIdle {a : AlarmEscalator} (h : a.law) : a.coverAndIdle.law := by
  obtain ⟨hlisted, -, -⟩ := a.law_iff.mp h
  refine AlarmEscalator.law_of_idle ?_ rfl rfl (not_hasUncovered_coverAll _)
  unfold AlarmEscalator.listed AlarmEscalator.coverAndIdle
  dsimp only
  rw [segments_coverAll]
  exact hlisted

/-- With entries uncovered at most fewer, the escalator settles (R150). -/
theorem AlarmEscalator.law_settle {a : AlarmEscalator} (hl : a.listed) (he : a.escalation ≠ .idle) (hs : a.stage ≠ none) :
    a.settle.law := by
  unfold AlarmEscalator.settle
  split
  · next hnone => exact AlarmEscalator.law_of_idle hl rfl rfl (a.uncoveredCount_eq_zero.mp hnone)
  · next hsome =>
    rw [a.uncoveredCount_eq_zero, not_not] at hsome
    exact AlarmEscalator.law_of_waiting hl he hs hsome

theorem mem_segments_filter (l : List AlarmEntry) (g x : SegmentNo) :
    x ∈ (l.filter (fun e => e.segment != g)).map AlarmEntry.segment ↔ x ≠ g ∧ x ∈ l.map AlarmEntry.segment := by
  simp only [List.mem_map, List.mem_filter, bne_iff_ne]
  constructor
  · rintro ⟨e, ⟨he, hg⟩, rfl⟩
    exact ⟨hg, e, he, rfl⟩
  · rintro ⟨hx, e, he, rfl⟩
    exact ⟨e, ⟨he, hx⟩, rfl⟩

/-- A condition that neither was nor is ALARM leaves the list as the law asks. -/
theorem AlarmEscalator.law_withCondition {a : AlarmEscalator} (h : a.law) {g : SegmentNo} {c : Condition}
    (hold : a.conditions.nth g ≠ .alarm) (hnew : c ≠ .alarm) : (a.withCondition g c).law := by
  obtain ⟨⟨hmem, hnodup⟩, hwait⟩ := a.law_iff.mp h
  refine (AlarmEscalator.law_iff _).mpr ⟨⟨fun x => ?_, hnodup⟩, hwait⟩
  unfold AlarmEscalator.withCondition
  rw [Table.nth_put, ← hmem x]
  by_cases hx : x = g
  · subst hx
    simp [hnew, hold]
  · rw [if_neg hx]

/-- A change to ALARM (R143, R146). -/
theorem AlarmEscalator.law_alarmRaised {a : AlarmEscalator} (h : a.law) {g : SegmentNo} (now t1 : Nat) (fire : Bool)
    (hold : a.conditions.nth g ≠ .alarm) : (alarmRaised (a.withCondition g .alarm) g now fire t1).law := by
  obtain ⟨⟨hmem, hnodup⟩, hwait, htimer⟩ := a.law_iff.mp h
  have absent : g ∉ a.alarmList.map AlarmEntry.segment := fun hg => hold ((hmem g).mpr hg)
  have joined : ∀ (x : AlarmEscalator), x.conditions = a.conditions.put g .alarm →
      x.alarmList.map AlarmEntry.segment = a.alarmList.map AlarmEntry.segment ++ [g] → x.listed := by
    intro x hc hl
    refine ⟨fun y => ?_, ?_⟩
    · rw [hc, hl, Table.nth_put, List.mem_append, ← hmem y, List.mem_singleton]
      by_cases hy : y = g <;> simp [hy]
    · rw [hl]
      exact hnodup.append (List.nodup_singleton g) (by simpa using absent)
  unfold alarmRaised
  dsimp only
  split
  · next hstart =>
    obtain ⟨hfire, -⟩ := hstart
    refine AlarmEscalator.law_of_waiting (joined _ rfl List.map_append) nofun nofun ?_
    exact ⟨_, List.mem_append_right _ (List.mem_singleton.mpr rfl), by simp [hfire]⟩
  · next hstart =>
    refine (AlarmEscalator.law_iff _).mpr ⟨joined _ rfl List.map_append, ?_, htimer⟩
    cases fire with
    | true =>
      refine hwait.trans ?_
      simp [hasUncovered, AlarmEscalator.withCondition, or_and_right, exists_or]
    | false =>
      have busy : a.escalation ≠ .idle := fun hidle => hstart ⟨rfl, hidle⟩
      exact ⟨fun _ => ⟨_, List.mem_append_right _ (List.mem_singleton.mpr rfl), rfl⟩, fun _ => busy⟩

/-- In a list of distinct segments the entries of one are the one found. -/
theorem AlarmEscalator.eq_of_entryOf {a : AlarmEscalator} (h : (a.alarmList.map AlarmEntry.segment).Nodup)
    {g : SegmentNo} {e x : AlarmEntry} (he : a.entryOf g = some e) (hx : x ∈ a.alarmList) (hg : x.segment = g) : x = e := by
  have he_mem : e ∈ a.alarmList := List.mem_of_find?_eq_some he
  have he_seg : e.segment = g := by simpa using List.find?_some he
  exact List.inj_on_of_nodup_map h hx he_mem (hg.trans he_seg.symm)

/-- A change from ALARM (R144, R150). -/
theorem AlarmEscalator.law_alarmCleared {a : AlarmEscalator} (h : a.law) {g : SegmentNo} {c : Condition} (hnew : c ≠ .alarm)
    (hold : a.conditions.nth g = .alarm) : (alarmCleared (a.withCondition g c) g).law := by
  obtain ⟨⟨hmem, hnodup⟩, hwait, htimer⟩ := a.law_iff.mp h
  have removed : ∀ x : AlarmEscalator, x.conditions = a.conditions.put g c →
      x.alarmList = a.alarmList.filter (fun e => e.segment != g) → x.listed := by
    intro x hc hl
    refine ⟨fun y => ?_, ?_⟩
    · rw [hc, hl, Table.nth_put, mem_segments_filter, ← hmem y]
      by_cases hy : y = g
      · simp [hy, hnew]
      · simp [hy]
    · rw [hl]
      exact hnodup.sublist (List.filter_sublist.map _)
  have entry : (a.withCondition g c).entryOf g = a.entryOf g := rfl
  unfold alarmCleared
  dsimp only
  rw [entry]
  cases hfind : a.entryOf g with
  | none =>
    obtain ⟨e, he, hseg⟩ := List.mem_map.mp ((hmem g).mp hold)
    have := List.find?_eq_none.mp hfind e he
    simp [hseg] at this
  | some e =>
    dsimp only
    split
    · next hlast =>
      obtain ⟨-, hbusy⟩ := hlast
      exact AlarmEscalator.law_settle (removed _ rfl rfl) hbusy (htimer.mpr hbusy)
    · next hkeep =>
      refine (AlarmEscalator.law_iff _).mpr ⟨removed _ rfl rfl, hwait.trans ?_, htimer⟩
      have covered : e.covering ≠ .uncovered := fun hu =>
        hkeep ⟨hu, hwait.mpr ⟨e, List.mem_of_find?_eq_some hfind, hu⟩⟩
      constructor
      · rintro ⟨x, hx, hu⟩
        refine ⟨x, List.mem_filter.mpr ⟨hx, ?_⟩, hu⟩
        by_contra hseg
        have same : x = e := AlarmEscalator.eq_of_entryOf hnodup hfind hx (by simpa using hseg)
        exact covered (same ▸ hu)
      · rintro ⟨x, hx, hu⟩
        exact ⟨x, (List.mem_filter.mp hx).1, hu⟩

/-- An entry covered with ACK (R153). -/
theorem AlarmEscalator.law_ack {a : AlarmEscalator} (h : a.law) {g : SegmentNo} {e : AlarmEntry} (he : a.entryOf g = some e)
    (hu : e.covering = .uncovered) :
    (if a.escalation = .idle then { a with alarmList := ackEntry a.alarmList g }
      else ({ a with alarmList := ackEntry a.alarmList g } : AlarmEscalator).settle).law := by
  obtain ⟨hlisted, hwait, htimer⟩ := a.law_iff.mp h
  have busy : a.escalation ≠ .idle := hwait.mpr ⟨e, List.mem_of_find?_eq_some he, hu⟩
  rw [if_neg busy]
  refine AlarmEscalator.law_settle ?_ busy (htimer.mpr busy)
  unfold AlarmEscalator.listed
  dsimp only
  rw [segments_ackEntry]
  exact hlisted

theorem AlarmEscalator.law_reset : AlarmEscalator.reset.law := by
  refine AlarmEscalator.law_of_idle ⟨fun g => ?_, List.nodup_nil⟩ rfl rfl (by rintro ⟨e, he, -⟩; cases he)
  have normal : AlarmEscalator.reset.conditions.nth g = .normal := Table.nth_replicate _ _
  rw [normal]
  exact ⟨nofun, nofun⟩

theorem AlarmEscalator.law_tick {a : AlarmEscalator} (h : a.law) : a.tick.law := by
  obtain ⟨hlisted, hwait, htimer⟩ := a.law_iff.mp h
  refine (AlarmEscalator.law_iff _).mpr ⟨hlisted, hwait, ?_⟩
  rw [← show a.escalation = a.tick.escalation from rfl, ← htimer]
  unfold AlarmEscalator.tick Timer.tick
  cases a.stage <;> simp

end Sys2Proof.Machine
end

section
/-! PROOF. Every command is a part that acts with parts around it that move no station. -/

namespace Sys2Proof.Machine

open Sys2Proof

/-! ### The alarm escalator -/

theorem State.asides_detectorWord (s : State) (g : SegmentNo) (new : Condition) (hg : s.part = .guard) :
    Asides s (s.detectorWord g new) := by
  unfold State.detectorWord
  dsimp only
  split
  · exact .refl
  · next hchange =>
    generalize hleft : s.alarms.conditions.nth g = left at hchange ⊢
    split
    · next hnew =>
      exact Asides.alarmed s _ [_] (fun h => AlarmEscalator.law_alarmRaised h _ _ _ (by rw [hleft]; exact hchange)) hg
    · exact Asides.alarmed s _ [_] (fun h => AlarmEscalator.law_alarmCleared h nofun hleft) hg
    · exact Asides.alarmed s _ [_, _] (fun h => AlarmEscalator.law_alarmCleared h nofun hleft) hg
    · next hold =>
      exact Asides.alarmed s _ [_] (fun h => AlarmEscalator.law_withCondition h (by rw [hleft]; exact hold) nofun) hg
    · next hold =>
      exact Asides.alarmed s _ [_] (fun h => AlarmEscalator.law_withCondition h (by rw [hleft]; exact hold) nofun) hg

theorem State.asides_t1Expiry (s : State) (hg : s.part = .guard) : Asides s s.t1Expiry := by
  unfold State.t1Expiry
  split
  · exact .refl
  · split
    · next hdue =>
      obtain ⟨hwait, -⟩ := hdue
      refine Asides.alarmed s _ [_] (fun h => ?_) hg
      obtain ⟨hlisted, huncovered, -⟩ := s.alarms.law_iff.mp h
      exact AlarmEscalator.law_of_waiting hlisted nofun nofun (huncovered.mp (by rw [hwait]; exact nofun))
    · exact .refl

theorem State.asides_t2Expiry (s : State) : Asides s s.t2Expiry := by
  unfold State.t2Expiry
  split
  · exact .refl
  · split
    · have counted : s.alarms.law →
          ({ s.alarms.coverAndIdle with nextNumber := numberAfter s.alarms.nextNumber } : AlarmEscalator).law :=
        fun h => AlarmEscalator.law_coverAndIdle h
      exact .head (.alarms s _ counted) (Asides.of_quiet (State.quiet_of_eq rfl rfl rfl))
    · exact .refl

theorem State.asides_declarationAnswer (s : State) (hg : s.part = .guard) : Asides s s.declarationAnswer := by
  unfold State.declarationAnswer
  split
  · exact .refl
  · split
    · exact .head (.alarms s _ AlarmEscalator.law_coverAndIdle) (Asides.of_quiet (State.quiet_of_eq rfl rfl rfl))
    · exact (Asides.hand s _ hg).trans (Asides.of_quiet (State.quiet_of_eq rfl rfl rfl))

theorem State.asides_declarationNotice (s : State) : Asides s s.declarationNotice := by
  unfold State.declarationNotice
  split
  · exact .refl
  · exact .head (.alarms s _ AlarmEscalator.law_coverAndIdle) (Asides.of_quiet (State.quiet_of_eq rfl rfl rfl))

/-! ### Words of sources -/

theorem State.effect_receive (s : State) (k : SourceNo) (w : Word) (hg : s.part = .guard) : Effect s (s.receive k w) := by
  unfold State.receive
  split
  · exact Effect.of_move hg (.word s _ _)
  · split
    · exact Effect.of_asides (s.asides_supplyReport _ _ hg)
    · split
      · exact Effect.of_asides (s.asides_putAnemometer _ _)
      · exact Effect.of_asides (s.asides_detectorWord _ _ hg)

theorem State.effect_sourceWritten (s : State) (k : SourceNo) (w : Word) (hg : s.part = .guard) :
    Effect s (s.sourceWritten k w) := by
  have refreshed := s.asides_sourceRefreshed k hg
  have part_kept : (s.sourceRefreshed k).part = .guard := by
    unfold State.sourceRefreshed
    dsimp only
    split <;> exact hg
  rw [State.sourceWritten_eq]
  split
  · exact Effect.before refreshed (State.effect_receive _ k w part_kept)
  · exact Effect.of_asides refreshed

theorem State.effect_sourceWrite (s : State) : Effect s s.sourceWrite := by
  unfold State.sourceWrite
  split
  · next k ho => exact Effect.delivered s ho rfl fun hg => State.effect_sourceWritten _ k _ hg
  · exact Effect.refl s

/-! ### The mailbox -/

theorem State.effect_argumentWrite (s : State) : Effect s s.argumentWrite := by
  unfold State.argumentWrite
  split
  · next n ho =>
    exact Effect.delivered s ho rfl fun _ => Effect.of_asides (Asides.of_quiet (State.quiet_of_eq rfl rfl rfl))
  · exact Effect.refl s

theorem State.effect_request (s : State) (ofEvent : Nat → Bool) {take : Nat → State → State}
    (htake : ∀ kind, s.finish.part = .guard → Effect s.finish (take kind s.finish)) : Effect s (s.request ofEvent take) := by
  unfold State.request
  split
  · next ho =>
    split
    · exact Effect.delivered s ho rfl (htake _)
    · exact Effect.refl s
  · exact Effect.refl s

/-- No part leaves GUARD but the reset. -/
theorem Effect.answered {s : State} {r : State × Answer} (kind : Nat) (hg : r.1.part = .guard) (h : Effect s r.1) :
    Effect s (answered kind r) :=
  h.after (Asides.reply r.1 kind r.2 hg)

theorem State.applyPlan_part (s : State) (i : Incident) (r : ReportRecord) : (s.applyPlan i r).part = s.part := by
  rw [(s.stationsOnly_applyPlan i r).1]

theorem State.releaseIncident_part (s : State) (i : Incident) : (s.releaseIncident i).part = s.part := by
  unfold State.releaseIncident
  rw [(State.stationsOnly_presentTargets _ _).1]

/-- What a taken request leaves: an effect that stays in GUARD. -/
def TakenInGuard (s t : State) : Prop := t.part = .guard ∧ Effect s t

theorem TakenInGuard.refl {s : State} (hg : s.part = .guard) : TakenInGuard s s := ⟨hg, Effect.refl s⟩

theorem TakenInGuard.plan {s : State} (hg : s.part = .guard) {i : Incident} (r : ReportRecord) (hb : i.boost = false) :
    TakenInGuard s (s.applyPlan i r) :=
  ⟨(s.applyPlan_part i r).trans hg, Effect.of_act (.claims hg (.plan s i r hb))⟩

theorem TakenInGuard.notify {s t : State} (h : TakenInGuard s t) : TakenInGuard s t.notify := by
  obtain ⟨hg, heff⟩ := h
  exact ⟨hg, heff.after (Asides.of_quiet (State.quiet_of_eq rfl rfl rfl))⟩

theorem TakenInGuard.answered {s : State} {r : State × Answer} (kind : Nat) (h : TakenInGuard s r.1) :
    Effect s (Machine.answered kind r) := by
  obtain ⟨hg, heff⟩ := h
  exact heff.answered kind hg

theorem TakenInGuard.checked {s : State} (hg : s.part = .guard) {r : State × Answer} (failed : Option Reason)
    (h : TakenInGuard s r.1) : TakenInGuard s (checked s failed r).1 := by
  cases failed with
  | none => exact h
  | some reason => exact TakenInGuard.refl hg

theorem State.taken_takeDeclare (s : State) (number segment : Nat) (flow : Dir) (hg : s.part = .guard) :
    TakenInGuard s (s.takeDeclare number segment flow).1 := by
  unfold State.takeDeclare
  split
  · exact (TakenInGuard.plan hg _ rfl).notify
  · split
    · exact (TakenInGuard.plan hg _ rfl).notify
    · exact TakenInGuard.refl hg

theorem State.taken_takeReplan (s : State) (number segment : Nat) (flow : Dir) (hg : s.part = .guard) :
    TakenInGuard s (s.takeReplan number segment flow).1 := by
  unfold State.takeReplan
  split
  · exact TakenInGuard.refl hg
  · split
    · exact TakenInGuard.plan hg _ rfl
    · exact TakenInGuard.refl hg

theorem State.taken_takeRelease (s : State) (number : Nat) (hg : s.part = .guard) :
    TakenInGuard s (s.takeRelease number).1 := by
  unfold State.takeRelease
  split
  · exact TakenInGuard.refl hg
  · split
    · exact ⟨(s.releaseIncident_part _).trans hg, Effect.of_act (.claims hg (.release s _))⟩
    · exact TakenInGuard.refl hg

theorem State.taken_takeIncident (s : State) (action number segment flow : Nat) (hg : s.part = .guard) :
    TakenInGuard s (s.takeIncident action number segment flow).1 := by
  unfold State.takeIncident
  apply TakenInGuard.checked hg
  split
  · exact s.taken_takeRelease number hg
  · apply TakenInGuard.checked hg
    split
    · exact s.taken_takeDeclare number segment _ hg
    · exact s.taken_takeReplan number segment _ hg

theorem State.effect_incidentRequest (s : State) (action : Nat) : Effect s (s.incidentRequest action) :=
  s.effect_request _ fun kind hg => (State.taken_takeIncident _ _ _ _ _ hg).answered kind

theorem State.taken_takeAlarmAck (s : State) (segment : Nat) (hg : s.part = .guard) :
    TakenInGuard s (s.takeAlarmAck segment).1 := by
  unfold State.takeAlarmAck
  split
  · exact TakenInGuard.refl hg
  · split
    · split
      · exact TakenInGuard.refl hg
      · next e he =>
        split
        · exact TakenInGuard.refl hg
        · exact TakenInGuard.refl hg
        · next hu =>
          exact ⟨hg, Effect.of_asides (.single (.alarms s _ fun h => AlarmEscalator.law_ack h he hu))⟩
    · exact TakenInGuard.refl hg

theorem State.effect_alarmAck (s : State) : Effect s s.alarmAck :=
  s.effect_request _ fun kind hg => (State.taken_takeAlarmAck _ _ hg).answered kind

theorem State.taken_operatorLock (s : State) (n : StationNo) (on : Bool) (hg : s.part = .guard) :
    TakenInGuard s (s.operatorLock n on) := by
  refine ⟨?_, Effect.of_move hg (.lock s n on)⟩
  unfold State.operatorLock
  split
  · exact hg
  · rw [(s.stationsOnly_changeLocks n _ _ _).1]
    exact hg

theorem State.effect_lock (s : State) : Effect s s.lock := by
  refine s.effect_request _ fun kind hg => TakenInGuard.answered kind ?_
  unfold State.takeLock
  split
  · exact TakenInGuard.refl hg
  · split
    · exact TakenInGuard.refl hg
    · exact State.taken_operatorLock _ _ _ hg

theorem State.effect_tripReset (s : State) : Effect s s.tripReset := by
  refine s.effect_request _ fun kind hg => TakenInGuard.answered kind ?_
  unfold State.takeTripReset
  split
  · exact TakenInGuard.refl hg
  · split
    · exact TakenInGuard.refl hg
    · next htripped =>
      split
      · exact TakenInGuard.refl hg
      · exact ⟨hg, Effect.of_move hg (.tripCleared _ _ (not_not.mp htripped))⟩

theorem State.effect_snapshotAnswered (s : State) (kind : Nat) (hg : s.part = .guard) (hf : s.inFlight = none) :
    Effect s (s.snapshotAnswered kind) := by
  unfold State.snapshotAnswered State.takeSnapshot
  dsimp only
  split
  · exact Effect.answered kind hg (Effect.refl s)
  · next hnone =>
    split
    · exact Effect.answered kind hg (Effect.refl s)
    · have free : s.writer.snapshot = none := by simpa using hnone
      exact (Effect.of_act (.snapshotTaken s _ _ hg free hf)).after (Asides.of_quiet (State.quiet_of_eq rfl rfl rfl))

theorem State.effect_snapshotRequest (s : State) : Effect s s.snapshotRequest :=
  s.effect_request _ fun kind hg => State.effect_snapshotAnswered _ kind hg s.finish_inFlight

theorem State.effect_unknownRequestKind (s : State) : Effect s s.unknownRequestKind :=
  s.effect_request _ fun kind hg => TakenInGuard.answered kind (TakenInGuard.refl hg)

/-! ### The image writer -/

/-- Outside GUARD a completion is delivered to no block of GUARD. -/
theorem Asides.finish_of_not_guard (s : State) (h : s.part ≠ .guard) : Asides s s.finish :=
  Asides.finish s fun hg => absurd hg h

theorem State.effect_tailWrite (s : State) : Effect s s.tailWrite := by
  unfold State.tailWrite
  split
  · next ho =>
    by_cases hg : s.part = .guard
    · rw [inGuard_finish_of hg]
      exact Effect.of_act (.tail s hg ho)
    · rw [inGuard, if_neg (by simpa using hg)]
      exact Effect.of_asides (Asides.finish_of_not_guard s hg)
  · exact Effect.refl s

theorem State.effect_recordHeadCompletion (s : State) : Effect s s.recordHeadCompletion := by
  unfold State.recordHeadCompletion
  split
  · next cls ho =>
    by_cases hg : s.part = .guard
    · rw [inGuard_finish_of hg]
      exact Effect.of_act (.recordHead s cls hg ho)
    · rw [inGuard, if_neg (by simpa using hg)]
      exact Effect.of_asides (Asides.finish_of_not_guard s hg)
  · exact Effect.refl s

theorem State.effect_snapshotComplete (s : State) : Effect s s.snapshotComplete := by
  unfold State.snapshotComplete
  split
  · next ho =>
    by_cases hg : s.part = .guard
    · rw [inGuard_finish_of hg]
      exact Effect.of_act (.snapshotDone s hg ho)
    · rw [inGuard, if_neg (by simpa using hg)]
      exact Effect.of_asides (Asides.finish_of_not_guard s hg)
  · exact Effect.refl s

/-! ### Setup, read-in, entry, clock -/

theorem copyAfter_wf (c : Cells Word) (a : Nat) (d : Word) (e : BitVec 4) (h : Cells.wf 0 c = true) :
    Cells.wf 0 (copyAfter c a d e) = true :=
  Cells.wf_write 0 c _ _ h

theorem State.effect_setupWrite (s : State) : Effect s s.setupWrite := by
  unfold State.setupWrite
  split
  · next q a d e hf =>
    have finished : Asides s s.finish := Asides.finish_of_owner s (s.flightOwner_of hf) rfl
    refine Effect.before finished (inCapture_keeps (Effect.refl _) fun hp => ?_)
    exact Effect.of_act (.copied s.finish _ hp (copyAfter_wf _ a d e))
  · exact Effect.refl s

theorem State.effect_closeTaken (s : State) (d : Word) (hp : s.part = .capture) : Effect s (s.closeTaken d) := by
  have counted : Asides s { s with closeCount := countAfter s.closeCount } :=
    Asides.of_quiet (State.quiet_of_eq rfl rfl rfl)
  cases hfault : Setup.closeFault s.copy d with
  | some x =>
    rw [s.closeTaken_of_fault hfault]
    exact Effect.before counted (Effect.of_act (.closeFails _ _ _ hp))
  | none =>
    rw [s.closeTaken_of_none hfault]
    exact Effect.before counted (Effect.of_act (.closeSucceeds _ d hp hfault))

theorem State.effect_close (s : State) : Effect s s.close := by
  unfold State.close
  split
  · next ho =>
    refine Effect.before (Asides.finish_of_owner s ho rfl) (inCapture_keeps (Effect.refl _) fun hp => ?_)
    exact State.effect_closeTaken _ _ hp
  · exact Effect.refl s

theorem State.effect_readIn (s : State) : Effect s s.readIn := by
  unfold State.readIn
  split
  · next n ho =>
    have finished := Asides.finish_of_owner s ho rfl
    split
    · next hp => exact Effect.before finished (Effect.of_act (.readIn _ n _ (s.finish_part.trans hp)))
    · exact Effect.of_asides finished
  · exact Effect.refl s

theorem State.effect_guardEntry (s : State) : Effect s s.guardEntry := by
  unfold State.guardEntry
  split
  · next ho =>
    have finished := Asides.finish_of_owner s ho rfl
    split
    · next hp => exact Effect.before finished (Effect.of_act (.guardEntry _ (s.finish_part.trans hp) s.finish_inFlight))
    · exact Effect.of_asides finished
  · exact Effect.refl s

theorem State.effect_timeStampTick (s : State) (hg : s.part = .guard) : Effect s s.timeStampTick := by
  unfold State.timeStampTick
  split
  · exact Effect.refl s
  · next hdue => exact Effect.of_act (.tick s hg (by simpa using hdue))

/-! ### Every command -/

/-- Every command answers a next state, and does no more than its parts. -/
theorem exec_effect (c : Instr) (s : State) : Completes c s (Effect s) := by
  cases c with
  | reset => exact ⟨_, rfl, Effect.of_act (.reset s)⟩
  | timeStampTick => exact ⟨_, rfl, Effect.inGuard s.effect_timeStampTick⟩
  | portWrite p a => exact ⟨_, rfl, s.effect_presentAccess p a⟩
  | heldWriteAccepted p => exact ⟨_, rfl, s.effect_acceptHeld p⟩
  | writeDisposition p => exact ⟨_, rfl, s.effect_writeDisposition p⟩
  | commandWrite => exact ⟨_, rfl, s.effect_commandWrite⟩
  | memoryGrant => exact ⟨_, rfl, s.effect_memoryGrant⟩
  | plainWrite => exact ⟨_, rfl, s.effect_plainWrite⟩
  | sourceWrite => exact ⟨_, rfl, s.effect_sourceWrite⟩
  | argumentWrite => exact ⟨_, rfl, s.effect_argumentWrite⟩
  | declare => exact ⟨_, rfl, s.effect_incidentRequest actionDeclare⟩
  | replan => exact ⟨_, rfl, s.effect_incidentRequest actionReplan⟩
  | release => exact ⟨_, rfl, s.effect_incidentRequest actionRelease⟩
  | alarmAck => exact ⟨_, rfl, s.effect_alarmAck⟩
  | lock => exact ⟨_, rfl, s.effect_lock⟩
  | tripReset => exact ⟨_, rfl, s.effect_tripReset⟩
  | snapshot => exact ⟨_, rfl, s.effect_snapshotRequest⟩
  | unknownRequestKind => exact ⟨_, rfl, s.effect_unknownRequestKind⟩
  | tailWrite => exact ⟨_, rfl, s.effect_tailWrite⟩
  | recordDue => exact ⟨_, rfl, Effect.inGuard fun hg => Effect.of_act (.recordDue s hg)⟩
  | overflow => exact ⟨_, rfl, Effect.inGuard fun hg => Effect.of_act (.overflow s hg)⟩
  | recordHeadCompletion => exact ⟨_, rfl, s.effect_recordHeadCompletion⟩
  | writeBackCompletion => exact ⟨_, rfl, s.effect_writeBackCompletion⟩
  | snapshotComplete => exact ⟨_, rfl, s.effect_snapshotComplete⟩
  | setupWrite => exact ⟨_, rfl, s.effect_setupWrite⟩
  | close => exact ⟨_, rfl, s.effect_close⟩
  | readIn => exact ⟨_, rfl, s.effect_readIn⟩
  | guardEntry => exact ⟨_, rfl, s.effect_guardEntry⟩
  | grant f => exact ⟨_, rfl, Effect.inGuard fun hg => Effect.of_move hg (.grant s f)⟩
  | startTimeout n => exact ⟨_, rfl, Effect.inGuard fun hg => Effect.of_move hg (.startTimeout s n)⟩
  | stopTimeoutExpiry n => exact ⟨_, rfl, Effect.inGuard fun hg => Effect.of_move hg (.stopTimeout s n)⟩
  | dwellExpiry n => exact ⟨_, rfl, Effect.inGuard fun hg => Effect.of_move hg (.dwellExpiry s n)⟩
  | spacingExpiry f => exact ⟨_, rfl, Effect.inGuard fun _ => Effect.of_asides (s.asides_spacingExpiry f)⟩
  | restoreExpiry f => exact ⟨_, rfl, Effect.inGuard fun hg => Effect.of_asides (s.asides_restoreExpiry f hg)⟩
  | ageExpiry k => exact ⟨_, rfl, Effect.inGuard fun hg => Effect.of_asides (s.asides_ageExpiry k hg)⟩
  | holdExpiry => exact ⟨_, rfl, Effect.inGuard fun hg => Effect.of_asides (s.asides_holdExpiry hg)⟩
  | lossExpiry => exact ⟨_, rfl, Effect.inGuard fun hg => Effect.of_asides (s.asides_lossExpiry hg)⟩
  | deadlineExpiry => exact ⟨_, rfl, Effect.inGuard s.effect_deadlineExpiry⟩
  | t1Expiry => exact ⟨_, rfl, Effect.inGuard fun hg => Effect.of_asides (s.asides_t1Expiry hg)⟩
  | t2Expiry => exact ⟨_, rfl, Effect.inGuard fun _ => Effect.of_asides s.asides_t2Expiry⟩
  | automaticDeclaration => exact ⟨_, rfl, Effect.inGuard s.effect_automaticDeclaration⟩
  | declarationAnswer => exact ⟨_, rfl, Effect.inGuard fun hg => Effect.of_asides (s.asides_declarationAnswer hg)⟩
  | declarationNotice => exact ⟨_, rfl, Effect.inGuard fun _ => Effect.of_asides s.asides_declarationNotice⟩
  | availabilityReport => exact ⟨_, rfl, Effect.inGuard s.effect_availabilityReport⟩
  | writeHeldAtPort p a => exact ⟨_, rfl, s.effect_presentAccess p a⟩

/-- A command's next state is an effect of it. -/
theorem exec_eq_effect {c : Instr} {s t : State} (h : exec c s = .next t) : Effect s t := by
  obtain ⟨u, hexec, heff⟩ := exec_effect c s
  rw [hexec] at h
  cases h
  exact heff

/-- A step has the effect of the command at the queue's front, if one waits; the queue is read by none. -/
theorem step_effect {s t : State} (h : step s = .next t) : ∃ q, Effect { s with pending := q } t := by
  unfold step at h
  split at h
  · cases h
    exact ⟨s.pending, Effect.refl s⟩
  · next c rest _ => exact ⟨rest, exec_eq_effect h⟩

/-- A law that does not read the queue and that every part of a command keeps, every step keeps. -/
theorem step_keeps {P : State → Prop} (hqueue : ∀ (s : State) (q : List Instr), P s → P { s with pending := q })
    (haside : ∀ {s t}, Aside s t → P s → P t) (hact : ∀ {s t}, Act s t → P s → P t) {s t : State}
    (hstep : step s = .next t) (hs : P s) : P t := by
  obtain ⟨q, heff⟩ := step_effect hstep
  exact heff.keeps haside hact (hqueue s q hs)

end Sys2Proof.Machine
end

section
/-! PROOF. What a command leaves alone beside the stations and their queues, and the laws that follow from that alone:
every command answers (O2), and the arbiter stays fair (O59). -/

namespace Sys2Proof.Machine

open Sys2Proof

/-! ### Frames -/

/-- Only what claims on stations and the incident controller change differs, and the image writer took records and
entries. -/
structure State.claimsOnly (s t : State) : Prop where
  frame : t = { s with
    turns := t.turns, stations := t.stations, feeders := t.feeders, incident := t.incident, view := t.view
    reports := t.reports, airflow := t.airflow, writer := t.writer }
  took : s.writer.took t.writer

theorem State.claimsOnly_of_stationsOnly {s t : State} (h : s.stationsOnly t) : s.claimsOnly t := by
  obtain ⟨frame, took⟩ := h
  exact ⟨by rw [frame], took⟩

/-- The claims come after a change of the incident, its view and the monitor, with records. -/
theorem State.claimsOnly_after {s u t : State} (hu : u = { s with
      incident := u.incident, view := u.view, airflow := u.airflow, writer := u.writer }) (htook : s.writer.took u.writer)
    (h : u.stationsOnly t) : s.claimsOnly t := by
  obtain ⟨frame, took⟩ := h
  exact ⟨by rw [frame, hu], ImageWriter.took_trans htook took⟩

theorem Move.stationsOnly {s t : State} (h : Move s t) : s.stationsOnly t := by
  cases h with
  | grant f => exact s.stationsOnly_grant f
  | word n o => exact s.stationsOnly_stationWord n o
  | startTimeout n =>
    unfold State.startTimeout
    split
    · exact s.stationsOnly_tripStation n _
    · exact s.stationsOnly_refl
  | stopTimeout n =>
    unfold State.stopTimeout
    split
    · exact s.stationsOnly_moveStation n _ _
    · exact s.stationsOnly_refl
  | dwellExpiry n =>
    unfold State.dwellExpiry
    split
    · split <;> exact s.stationsOnly_moveStation n _ _
    · exact s.stationsOnly_refl
  | confirm n => exact s.stationsOnly_confirm n
  | lock n on =>
    unfold State.operatorLock
    split
    · exact s.stationsOnly_refl
    · exact s.stationsOnly_changeLocks n _ _ _
  | tripCleared n _ => exact s.stationsOnly_moveStation n _ _

theorem Claims.claimsOnly {s t : State} (h : Claims s t) : s.claimsOnly t := by
  cases h with
  | move m => exact State.claimsOnly_of_stationsOnly m.stationsOnly
  | absorbed n c => exact State.claimsOnly_of_stationsOnly (s.stationsOnly_absorbed n c)
  | plan i r _ =>
    exact State.claimsOnly_after (u := { s with
      incident := some i, view := some s.viewNow, airflow := enterPending s.copy s.airflow i s.tenths }) rfl
      (ImageWriter.took_refl _) (s.stationsOnly_applyPlan i r)
  | release i =>
    exact State.claimsOnly_after (u := { s with
      incident := none, view := none, airflow := { s.airflow with hold := none, deadline := none }
      writer := s.writer.hand (releasedRecord s i) }) rfl (s.writer.took_hand _) (State.stationsOnly_presentTargets _ _)
  | boost i _ =>
    unfold State.applyBoost
    exact State.claimsOnly_after rfl (s.writer.took_handAll _) (State.stationsOnly_presentTargets _ _)
  | seek _ o _ _ => exact State.claimsOnly_of_stationsOnly (s.stationsOnly_seekSpare o)

/-- A grant of the memory port changes the port granted, the access in flight, and of the image writer's side the read-in,
the station granted and the writer. -/
theorem State.grantTo_frame {s t : State} {r : Requester} (h : s.grantTo r = some t) :
    t = { s with
      reading := t.reading, control := t.control, scanner := t.scanner, inFlight := t.inFlight
      stations := t.stations, writer := t.writer } := by
  have port_frame : ∀ p, s.grantPort p = { s with
      reading := (s.grantPort p).reading, control := (s.grantPort p).control, scanner := (s.grantPort p).scanner
      inFlight := (s.grantPort p).inFlight, stations := (s.grantPort p).stations, writer := (s.grantPort p).writer } := by
    intro p
    unfold State.grantPort
    dsimp only
    split <;> rfl
  have record_frame : ∀ x l, (s.grantRecord x l) = { s with
      reading := (s.grantRecord x l).reading, control := (s.grantRecord x l).control
      scanner := (s.grantRecord x l).scanner, inFlight := (s.grantRecord x l).inFlight
      stations := (s.grantRecord x l).stations, writer := (s.grantRecord x l).writer } := by
    intro x l
    unfold State.grantRecord
    dsimp only
    split <;> rfl
  cases r with
  | scanner => cases h; exact port_frame .scanner
  | control => cases h; exact port_frame .control
  | image =>
    dsimp only [State.grantTo] at h
    unfold State.grantImage State.grantEntryAccess at h
    split at h
    · cases h; rfl
    · split at h
      case h_1 => cases h
      case h_2 => cases h; rfl
      case h_3 => cases h; rfl
      case h_4 =>
        split at h
        · cases h
        · cases h; exact record_frame _ _
      case h_5 => cases h
      case h_6 => cases h; rfl
      case h_7 => cases h; exact record_frame _ _
      case h_8 => cases h
      case h_9 =>
        obtain ⟨x, -, rfl⟩ := Option.map_eq_some_iff.mp h
        unfold State.grantSnapshot
        dsimp only
        split <;> rfl
      case h_10 => cases h; rfl
      case h_11 => cases h; rfl

theorem State.recordDue_frame (s : State) : s.recordDue = { s with writer := s.recordDue.writer } := by
  unfold State.recordDue
  split
  · split <;> rfl
  · rfl

theorem State.overflowTurn_frame (s : State) : s.overflowTurn = { s with writer := s.overflowTurn.writer } := by
  unfold State.overflowTurn
  split
  · split <;> rfl
  · rfl

/-! ### The queue -/

theorem Aside.pending {s t : State} (h : Aside s t) : t.pending = s.pending := by
  cases h with
  | quiet h => rw [h.frame]
  | _ => rfl

theorem Act.pending {s t : State} (h : Act s t) : t.pending = s.pending := by
  cases h with
  | claims _ h => rw [h.claimsOnly.frame]
  | memoryGrant _ _ ht =>
    have frame := State.grantTo_frame ht
    dsimp only
    rw [frame]
  | tail => exact s.finish_pending
  | recordHead => exact s.finish_pending
  | snapshotDone => exact s.finish_pending
  | recordDue => rw [s.recordDue_frame]
  | overflow => rw [s.overflowTurn_frame]
  | _ => rfl

/-- Settles O2: every command is made of parts (`exec_effect`), and no part touches the queue. -/
theorem everyCommandAnswersNext : Obligations.EveryCommandAnswersNext := by
  intro c s
  obtain ⟨t, hexec, heff⟩ := exec_effect c s
  exact ⟨t, hexec, heff.keeps (P := fun u => u.pending = s.pending) (fun h hs => h.pending.trans hs)
    (fun h hs => h.pending.trans hs) rfl⟩

/-! ### The arbiter (R170) -/

theorem Aside.arbiter {s t : State} (h : Aside s t) : t.arbiter = s.arbiter := by
  cases h with
  | quiet h => rw [h.frame]
  | _ => rfl

/-- The fixed order of the requesters (R170). -/
def Requester.place : Requester → Nat
  | .image => 0
  | .scanner => 1
  | .control => 2

/-- A requester is ahead of another: a lower value, at equal value a larger lost count, at both equal the fixed order
(R170). -/
def State.ahead (s : State) (r q : Requester) : Prop :=
  (s.arbiter.of r).value < (s.arbiter.of q).value
    ∨ (s.arbiter.of r).value = (s.arbiter.of q).value ∧ ((s.arbiter.of q).lost < (s.arbiter.of r).lost
      ∨ (s.arbiter.of q).lost = (s.arbiter.of r).lost ∧ r.place < q.place)

theorem State.ahead_trans {s : State} {a b c : Requester} (h : s.ahead a b) (h' : s.ahead b c) : s.ahead a c := by
  unfold State.ahead at *
  omega

theorem State.not_ahead_of_ahead {s : State} {a b : Requester} (h : s.ahead a b) : ¬s.ahead b a := by
  unfold State.ahead at *
  omega

/-- With both waiting, the one earlier in the fixed order beats the other exactly when it is ahead. -/
theorem State.beats_iff_ahead (s : State) {a b : Requester} (h : a.place < b.place) :
    (s.arbiter.of a).beats (s.arbiter.of b) = true ↔ s.ahead a b := by
  simp only [Priority.beats, State.ahead, Bool.or_eq_true, Bool.and_eq_true, decide_eq_true_eq]
  omega

theorem State.ahead_of_not_ahead {s : State} {a b : Requester} (hplace : a.place < b.place) (h : ¬s.ahead a b) :
    s.ahead b a := by
  unfold State.ahead at *
  omega

/-- One more requester is compared with the best so far. -/
def State.better (s : State) (a : Option Requester) (b : Requester) : Option Requester :=
  if s.waiting b then
    match a with
    | none => some b
    | some r => if (s.arbiter.of r).beats (s.arbiter.of b) then some r else some b
  else a

theorem State.winner_eq (s : State) :
    s.winner = s.better (s.better (s.better none .image) .scanner) .control := rfl

/-- The choice among some requesters: none that waits, or the waiting one ahead of all others. -/
def State.chooses (s : State) (l : List Requester) : Option Requester → Prop
  | none => ∀ q ∈ l, s.waiting q = false
  | some r => s.waiting r = true ∧ ∀ q ∈ l, s.waiting q = true → q ≠ r → s.ahead r q

theorem State.chooses_better {s : State} {l : List Requester} {a : Option Requester} {b : Requester}
    (h : s.chooses l a) (ha : ∀ r, a = some r → r ∈ l) (hplace : ∀ q ∈ l, q.place < b.place) :
    s.chooses (b :: l) (s.better a b) := by
  unfold State.better
  split
  · next hb =>
    cases a with
    | none =>
      refine ⟨hb, fun q hq hwait hne => ?_⟩
      rcases List.mem_cons.mp hq with rfl | hq
      · exact absurd rfl hne
      · rw [h q hq] at hwait
        cases hwait
    | some r =>
      obtain ⟨hr, hahead⟩ := h
      have place_lt := hplace r (ha r rfl)
      dsimp only
      split
      · next hbeats =>
        refine ⟨hr, fun q hq hwait hne => ?_⟩
        rcases List.mem_cons.mp hq with rfl | hq
        · exact (s.beats_iff_ahead place_lt).mp hbeats
        · exact hahead q hq hwait hne
      · next hloses =>
        rw [s.beats_iff_ahead place_lt] at hloses
        have b_ahead : s.ahead b r := State.ahead_of_not_ahead place_lt hloses
        refine ⟨hb, fun q hq hwait hne => ?_⟩
        rcases List.mem_cons.mp hq with rfl | hq
        · exact absurd rfl hne
        · by_cases hqr : q = r
          · exact hqr ▸ b_ahead
          · exact State.ahead_trans b_ahead (hahead q hq hwait hqr)
  · next hb =>
    have idle : s.waiting b = false := by simpa using hb
    cases a with
    | none =>
      intro q hq
      rcases List.mem_cons.mp hq with rfl | hq
      · exact idle
      · exact h q hq
    | some r =>
      obtain ⟨hr, hahead⟩ := h
      refine ⟨hr, fun q hq hwait hne => ?_⟩
      rcases List.mem_cons.mp hq with rfl | hq
      · rw [idle] at hwait
        cases hwait
      · exact hahead q hq hwait hne

theorem State.better_mem {s : State} {l : List Requester} {a : Option Requester} {b : Requester}
    (ha : ∀ r, a = some r → r ∈ l) : ∀ r, s.better a b = some r → r ∈ b :: l := by
  intro r hr
  unfold State.better at hr
  split at hr
  · split at hr
    · cases hr; exact List.mem_cons_self
    · split at hr <;> cases hr
      · exact List.mem_cons_of_mem _ (ha _ rfl)
      · exact List.mem_cons_self
  · exact List.mem_cons_of_mem _ (ha r hr)

theorem State.winner_chosen (s : State) : s.chooses [.control, .scanner, .image] s.winner := by
  have none_mem : ∀ r, (none : Option Requester) = some r → r ∈ ([] : List Requester) := nofun
  have first : s.chooses [.image] (s.better none .image) := State.chooses_better nofun none_mem nofun
  have first_mem := State.better_mem (s := s) (b := .image) none_mem
  have second : s.chooses [.scanner, .image] (s.better (s.better none .image) .scanner) :=
    State.chooses_better first first_mem (by simp [Requester.place])
  rw [s.winner_eq]
  exact State.chooses_better second (State.better_mem first_mem) (by simp [Requester.place])

theorem Requester.mem_all (q : Requester) : q ∈ [Requester.control, .scanner, .image] := by
  cases q <;> simp

/-- The winner is the waiting requester ahead of every other waiting one (R170). -/
theorem State.winner_eq_some_iff (s : State) (r : Requester) :
    s.winner = some r ↔ s.waiting r = true ∧ ∀ q, s.waiting q = true → q ≠ r → s.ahead r q := by
  have chosen := s.winner_chosen
  constructor
  · intro h
    rw [h] at chosen
    obtain ⟨hwait, hahead⟩ := chosen
    exact ⟨hwait, fun q => hahead q q.mem_all⟩
  · rintro ⟨hwait, hahead⟩
    cases hw : s.winner with
    | none =>
      rw [hw] at chosen
      rw [chosen r r.mem_all] at hwait
      cases hwait
    | some q =>
      rw [hw] at chosen
      obtain ⟨hq, hbest⟩ := chosen
      by_cases hqr : q = r
      · rw [hqr]
      · exact absurd (hbest r r.mem_all hwait (Ne.symm hqr)) (State.not_ahead_of_ahead (hahead q hq hqr))

theorem State.winner_ahead {s : State} {r : Requester} (h : s.winner = some r) {q : Requester} (hq : s.waiting q = true)
    (hne : q ≠ r) : s.ahead r q :=
  ((s.winner_eq_some_iff r).mp h).2 q hq hne

/-- The lost count of a requester that did not win: one more if it waited behind the winner. -/
theorem State.lostAfter_other {s : State} {r q : Requester} (h : s.winner = some r) (hne : q ≠ r) :
    s.lostAfter r q = (s.arbiter.of q).lost
      ∨ s.lostAfter r q = (s.arbiter.of q).lost + 1 ∧ s.ahead r q := by
  unfold State.lostAfter
  rw [if_neg hne]
  split
  · next hq => exact .inr ⟨rfl, State.winner_ahead h hq hne⟩
  · exact .inl rfl

theorem State.lostAfter_winner (s : State) (r : Requester) : s.lostAfter r r = 0 := if_pos rfl

/-- A grant keeps the arbiter fair: with bases up to 7, a count of 8 brings its requester's value to 0, so it can lose
once more at most, and to one that has lost as often (R170). -/
theorem State.fair_arbiterAfter {s : State} {r : Requester} (h : s.winner = some r) (hf : s.arbiter.fair) :
    (s.arbiterAfter r).fair := by
  have winner_count := s.lostAfter_winner r
  have image := State.lostAfter_other (q := .image) h
  have scanner := State.lostAfter_other (q := .scanner) h
  have control := State.lostAfter_other (q := .control) h
  unfold Arbiter.fair at hf ⊢
  simp only [State.arbiterAfter, State.ahead, Priority.value, Arbiter.of] at *
  obtain ⟨hbase, hzero, hlost⟩ := hf
  cases r with
  | image =>
    replace scanner := scanner nofun
    replace control := control nofun
    dsimp only at scanner control
    omega
  | scanner =>
    replace image := image nofun
    replace control := control nofun
    dsimp only at image control
    omega
  | control =>
    replace image := image nofun
    replace scanner := scanner nofun
    dsimp only at image scanner
    omega

/-! ### The base priorities of a close (R179) -/

theorem Setup.firstFault_cons_none {x : SetupCode × List (Nat × Bool)} {l : List (SetupCode × List (Nat × Bool))}
    (h : Setup.firstFault (x :: l) = none) : (∀ y ∈ x.2, y.2 = true) ∧ Setup.firstFault l = none := by
  obtain ⟨code, entries⟩ := x
  unfold Setup.firstFault at h
  split at h
  · cases h
  · next hnone =>
    refine ⟨fun y hy => ?_, h⟩
    unfold Setup.firstAtFault at hnone
    rw [Option.map_eq_none_iff, List.find?_eq_none] at hnone
    simpa using hnone y hy

/-- A copy that a close takes has base priorities of at most 7. -/
theorem Setup.bases_of_closeFault {c : Cells Word} {d : Word} (h : Setup.closeFault c d = none) :
    Setup.basePriorityImage c ≤ 7 ∧ Setup.basePriorityScanner c ≤ 7 ∧ Setup.basePriorityControl c ≤ 7 := by
  unfold Setup.closeFault at h
  split at h
  · unfold Setup.checks at h
    obtain ⟨-, rest⟩ := Setup.firstFault_cons_none h
    obtain ⟨counts, -⟩ := Setup.firstFault_cons_none rest
    have bases := counts (4, within 0 7 (Setup.basePriorityImage c) && within 0 7 (Setup.basePriorityScanner c)
      && within 0 7 (Setup.basePriorityControl c)) (by simp [Setup.checkCounts])
    simpa [within, and_assoc] using bases
  · cases h

theorem Arbiter.fair_reset : Arbiter.reset.fair := by
  unfold Arbiter.fair
  decide

theorem Act.fair {s t : State} (h : Act s t) (hf : s.arbiter.fair) : t.arbiter.fair := by
  cases h with
  | claims _ h => rw [h.claimsOnly.frame]; exact hf
  | memoryGrant _ hw _ => exact State.fair_arbiterAfter hw hf
  | tail => exact s.finish_arbiter ▸ hf
  | recordHead => exact s.finish_arbiter ▸ hf
  | snapshotDone => exact s.finish_arbiter ▸ hf
  | recordDue => rw [s.recordDue_frame]; exact hf
  | overflow => rw [s.overflowTurn_frame]; exact hf
  | closeSucceeds d _ hfault =>
    obtain ⟨-, hlost⟩ := hf
    exact ⟨Setup.bases_of_closeFault hfault, hlost⟩
  | guardEntry =>
    obtain ⟨hbase, -, hlost, -, -, htwo⟩ := hf
    unfold Arbiter.fair State.enterGuard
    dsimp only
    omega
  | reset => exact Arbiter.fair_reset
  | _ => exact hf

/-- Settles O59: only a grant, a close, the entry to GUARD and the reset touch the arbiter. -/
theorem everyStepKeepsTheArbiterFair : Obligations.EveryStepKeepsTheArbiterFair := by
  intro s t hf hstep
  exact step_keeps (P := fun u => u.arbiter.fair) (fun _ _ h => h) (fun h hs => h.arbiter ▸ hs) (fun h hs => h.fair hs)
    hstep hf

end Sys2Proof.Machine
end

section
/-! PROOF. What the stations take is made of changes of one station's record, its transitions, retargets of its queue
entry, and grants. The laws that hold between any two of these are proved of them. -/

namespace Sys2Proof.Machine

open Sys2Proof

/-! ### The parts of a claim -/

/-- The law of locks and trips for one station's record (R6, R48, R49). -/
def Station.outLaw (d : Station) : Prop :=
  (d.state = .locked ↔ d.locks.empty = false) ∧ (d.state = .tripped ↔ d.tripCause.isSome = true)

/-- One part of what the stations take. -/
inductive Touch : State → State → Prop
  | put (s : State) (n : StationNo) (d : Station) (hstate : d.state = (s.station n).state)
      (hpend : d.writeBackPending = (s.station n).writeBackPending) (hout : (s.station n).outLaw → d.outLaw) :
      Touch s (s.putStation n d)
  | move (s : State) (n : StationNo) (d : Station) (l : List ReportRecord) (hstart : d.state ≠ .starting)
      (hpend : d.writeBackPending = (s.station n).writeBackPending) (hout : (s.station n).outLaw → d.outLaw) :
      Touch s (s.moveStation n d l)
  | retarget (s : State) (n : StationNo) : Touch s (s.retarget n)
  | grant (s : State) (f : FeederNo) : Touch s (s.grant f)
  | hand (s : State) (l : List ReportRecord) : Touch s (s.hand l)
  | other (s : State) (turns : List (List Turn)) (i : Option Incident) (v : Option (Table Bool 64)) (m : AirflowMonitor) :
      Touch s { s with turns := turns, incident := i, view := v, airflow := m }

/-- Parts of what the stations take, one after the other. -/
abbrev Touches : State → State → Prop := Relation.ReflTransGen Touch

theorem Touches.keeps {P : State → Prop} (h : ∀ {s t}, Touch s t → P s → P t) {s t : State} (hst : Touches s t)
    (hs : P s) : P t := by
  induction hst with
  | refl => exact hs
  | tail _ step ih => exact h step ih

/-! ### Locks and trips of a record -/

/-- A record in service stays lawful in any state in service. -/
theorem Station.outLaw_of_inService {d d' : Station} (h : d.outLaw) (hd : d.state.out = false) (hd' : d'.state.out = false)
    (hl : d'.locks = d.locks) (ht : d'.tripCause = d.tripCause) : d'.outLaw := by
  unfold Station.outLaw at *
  rw [hl, ht]
  cases hs : d.state <;> cases hs' : d'.state <;> simp_all [LifeState.out]

/-- A change of other fields. -/
theorem Station.outLaw_congr {d d' : Station} (h : d.outLaw) (hs : d'.state = d.state) (hl : d'.locks.empty = d.locks.empty)
    (ht : d'.tripCause = d.tripCause) : d'.outLaw := by
  unfold Station.outLaw at *
  rw [hs, hl, ht]
  exact h

theorem Station.outLaw_toTripped {d : Station} (h : d.outLaw) (hd : d.state.out = false) (c : TripCause) :
    (d.toTripped c).outLaw := by
  obtain ⟨hlock, -⟩ := h
  have unlocked : d.locks.empty ≠ false := fun hl => by
    rw [hlock.mpr hl] at hd
    cases hd
  unfold Station.outLaw Station.toTripped
  simp [unlocked]

theorem Touches.move {s : State} {n : StationNo} {d : Station} (l : List ReportRecord) (hstart : d.state ≠ .starting)
    (hpend : d.writeBackPending = (s.station n).writeBackPending) (hout : (s.station n).outLaw → d.outLaw) :
    Touches s (s.moveStation n d l) := .single (.move s n d l hstart hpend hout)

/-- A transition within service. -/
theorem Touches.serve {s : State} {n : StationNo} {d : Station} (l : List ReportRecord) (hstart : d.state ≠ .starting)
    (hpend : d.writeBackPending = (s.station n).writeBackPending) (hold : (s.station n).state.out = false)
    (hnew : d.state.out = false) (hl : d.locks = (s.station n).locks) (ht : d.tripCause = (s.station n).tripCause) :
    Touches s (s.moveStation n d l) :=
  Touches.move l hstart hpend fun h => Station.outLaw_of_inService h hold hnew hl ht

/-- A change of fields that neither state, locks nor trip cause are among. -/
theorem Touches.put {s : State} {n : StationNo} {d : Station} (hstate : d.state = (s.station n).state)
    (hpend : d.writeBackPending = (s.station n).writeBackPending) (hl : d.locks.empty = (s.station n).locks.empty)
    (ht : d.tripCause = (s.station n).tripCause) : Touches s (s.putStation n d) :=
  .single (.put s n d hstate hpend fun h => Station.outLaw_congr h hstate hl ht)

theorem Touches.trip {s : State} {n : StationNo} (c : TripCause) (h : (s.station n).state.out = false) :
    Touches s (s.tripStation n c) :=
  Touches.move _ nofun rfl fun ho => Station.outLaw_toTripped ho h c

theorem Touches.dwell {s : State} {n : StationNo} (l : List ReportRecord) (h : (s.station n).state.out = false) :
    Touches s (s.dwellStation n l) :=
  Touches.serve _ nofun rfl h rfl rfl rfl

theorem LifeState.out_of_eq {x y : LifeState} (h : x = y) (hy : y.out = false) : x.out = false := h ▸ hy

/-! ### Changes of request -/

theorem State.touches_runningChange (s : State) (n : StationNo) (h : (s.station n).state.out = false) :
    Touches s (s.runningChange n) := by
  unfold State.runningChange
  dsimp only
  split
  · exact Touches.serve _ nofun rfl h rfl rfl rfl
  · split
    · exact Touches.put rfl rfl rfl rfl
    · split
      · exact Touches.serve _ nofun rfl h rfl rfl rfl
      · exact .refl

theorem State.touches_queuedChange (s : State) (n : StationNo) (h : (s.station n).state.out = false) :
    Touches s (s.queuedChange n) := by
  unfold State.queuedChange
  dsimp only
  split
  · split
    · exact Touches.serve _ nofun rfl h rfl rfl rfl
    · exact .single (.retarget s n)
  · split
    · exact Touches.serve _ nofun rfl h rfl rfl rfl
    · split
      · exact .single (.retarget s n)
      · exact Touches.serve _ nofun rfl h rfl rfl rfl

theorem State.touches_lifecycleChange (s : State) (n : StationNo) : Touches s (s.lifecycleChange n) := by
  unfold State.lifecycleChange
  split
  · next hstate =>
    split
    · exact .refl
    · exact Touches.serve _ nofun rfl (LifeState.out_of_eq hstate rfl) rfl rfl rfl
  · next hstate => exact s.touches_queuedChange n (LifeState.out_of_eq hstate rfl)
  · next hstate =>
    split
    · exact Touches.serve _ nofun rfl (LifeState.out_of_eq hstate rfl) rfl rfl rfl
    · exact .refl
  · next hstate => exact s.touches_runningChange n (LifeState.out_of_eq hstate rfl)
  all_goals exact .refl

theorem State.touches_setRequest (s : State) (n : StationNo) (c : FanCommand) : Touches s (s.setRequest n c) := by
  have put : Touches s (s.putStation n { s.station n with request := c }) := Touches.put rfl rfl rfl rfl
  unfold State.setRequest State.claim
  split
  · exact put.trans (State.touches_lifecycleChange _ n)
  · exact put

theorem State.touches_setTarget (s : State) (n : StationNo) (x : Option PlanTarget) : Touches s (s.setTarget n x) := by
  have put : Touches s (s.putStation n { s.station n with target := x }) := Touches.put rfl rfl rfl rfl
  unfold State.setTarget State.claim
  split
  · exact put.trans (State.touches_lifecycleChange _ n)
  · exact put

/-! ### Locks and words -/

theorem State.touches_changeLocks (s : State) (n : StationNo) (k : Nat) (b : Bool) (l : LockSet) :
    Touches s (s.changeLocks n k b l) := by
  unfold State.changeLocks
  dsimp only
  split
  · next hlock =>
    simp only [Bool.and_eq_true, Bool.not_eq_eq_eq_not, Bool.not_true] at hlock
    obtain ⟨-, held⟩ := hlock
    refine Touches.move _ nofun rfl fun _ => ?_
    simp [Station.outLaw, Station.toLocked, held]
  · split
    · next hunlock =>
      simp only [Bool.and_eq_true, Bool.not_eq_eq_eq_not, Bool.not_true] at hunlock
      obtain ⟨held, free⟩ := hunlock
      have leaves : ∀ d : Station, (d = (s.station n).toDwell (s.static n).dwell ∨ d = (s.station n).toStopping) →
          Touches s (s.moveStation n { d with locks := l } [lockRecord s n k b l]) := by
        rintro d (rfl | rfl)
        all_goals
          refine Touches.move _ nofun rfl fun hlaw => ?_
          obtain ⟨hlock, htrip⟩ := hlaw
          have untripped : ¬(s.station n).tripCause.isSome = true := fun h => by
            have := htrip.mpr h
            rw [hlock.mpr held] at this
            cases this
          simp [Station.outLaw, Station.toDwell, Station.toStopping, free, untripped]
      apply leaves
      unfold Station.unlocked
      split
      · split
        · exact .inl rfl
        · exact .inr rfl
      · exact .inr rfl
    · next hlock hunlock =>
      have same : l.empty = (s.station n).locks.empty := by
        cases hl : l.empty <;> cases hd : (s.station n).locks.empty <;> simp_all
      have put : Touches s (s.putStation n { s.station n with locks := l }) := Touches.put rfl rfl same rfl
      exact put.trans (.single (.hand _ _))

theorem State.touches_startEnds (s : State) (n : StationNo) (h : (s.station n).state.out = false) :
    Touches s (s.startEnds n) := by
  have ends : Touches s (s.moveStation n { s.station n with state := .running, timer := none } []) :=
    Touches.serve _ nofun rfl h rfl rfl rfl
  unfold State.startEnds
  dsimp only
  split
  · exact ends
  · refine ends.trans (State.touches_runningChange _ n ?_)
    rw [State.state_moveStation_self]
    rfl

theorem State.touches_unexpectedStop (s : State) (n : StationNo) (h : (s.station n).state.out = false) :
    Touches s (s.unexpectedStop n) := by
  unfold State.unexpectedStop
  split
  · exact Touches.trip _ h
  · exact Touches.dwell _ h

theorem State.touches_judgeDrive (s : State) (n : StationNo) (o : Observed) : Touches s (s.judgeDrive n o) := by
  unfold State.judgeDrive
  dsimp only
  split
  · next hstate =>
    split
    · exact s.touches_unexpectedStop n (LifeState.out_of_eq hstate rfl)
    · exact .refl
  · next hstate =>
    split
    · exact Touches.dwell _ (LifeState.out_of_eq hstate rfl)
    · split
      · exact s.touches_startEnds n (LifeState.out_of_eq hstate rfl)
      · exact .refl
  · next hstate =>
    split
    · exact s.touches_unexpectedStop n (LifeState.out_of_eq hstate rfl)
    · exact .refl
  · next hstate =>
    split
    · exact Touches.dwell _ (LifeState.out_of_eq hstate rfl)
    · exact .refl
  all_goals exact .refl

/-- A change of the lock causes that leaves the set empty or non-empty as it was moves no station (R20). -/
theorem State.changeLocks_of_same {s : State} {n : StationNo} {l : LockSet} (k : Nat) (b : Bool)
    (h : (s.station n).locks.empty = l.empty) :
    s.changeLocks n k b l = (s.putStation n { s.station n with locks := l }).hand [lockRecord s n k b l] := by
  unfold State.changeLocks
  dsimp only
  rw [h]
  simp

theorem State.locks_observed (s : State) (n : StationNo) (o : Option Observed) :
    ((s.putStation n { s.station n with observed := o }).station n).locks = (s.station n).locks := by
  rw [State.locks_putStation_self]

/-- The state in which a word's flags have been taken: observed replaced, the LOCAL cause following the local flag (R26
steps 1 and 2). -/
def State.wordSeen (s : State) (n : StationNo) (o : Observed) : State :=
  if (s.station n).locks.localSwitch = o.localSwitch then s.putStation n { s.station n with observed := some o }
  else (s.putStation n { s.station n with observed := some o }).changeLocks n 1 o.localSwitch
    { (s.station n).locks with localSwitch := o.localSwitch }

theorem State.stationWord_eq (s : State) (n : StationNo) (o : Observed) :
    s.stationWord n o =
      if (s.station n).locks.empty != LockSet.empty { (s.station n).locks with localSwitch := o.localSwitch } then
        s.wordSeen n o
      else if o.trip then
        if (s.station n).state.out then s.wordSeen n o else (s.wordSeen n o).tripStation n .driveTrip
      else (s.wordSeen n o).judgeDrive n o := rfl

theorem State.touches_wordSeen (s : State) (n : StationNo) (o : Observed) : Touches s (s.wordSeen n o) := by
  have seen : Touches s (s.putStation n { s.station n with observed := some o }) := Touches.put rfl rfl rfl rfl
  unfold State.wordSeen
  split
  · exact seen
  · exact seen.trans (State.touches_changeLocks _ _ _ _ _)

/-- While the set of lock causes stays empty or not, the flags leave the station in its state. -/
theorem State.state_wordSeen {s : State} {n : StationNo} {o : Observed}
    (h : (s.station n).locks.empty = LockSet.empty { (s.station n).locks with localSwitch := o.localSwitch }) :
    ((s.wordSeen n o).station n).state = (s.station n).state := by
  unfold State.wordSeen
  split
  · rw [State.state_putStation_self]
  · rw [State.changeLocks_of_same 1 o.localSwitch (by rw [State.locks_observed]; exact h)]
    show ((State.putStation _ n _).station n).state = _
    rw [State.state_putStation_self, State.state_putStation_self]

theorem State.touches_stationWord (s : State) (n : StationNo) (o : Observed) : Touches s (s.stationWord n o) := by
  have seen := s.touches_wordSeen n o
  rw [s.stationWord_eq]
  split
  · exact seen
  · next hsame =>
    have same : (s.station n).locks.empty = LockSet.empty { (s.station n).locks with localSwitch := o.localSwitch } := by
      simpa using hsame
    split
    · split
      · exact seen
      · next hout =>
        refine seen.trans (Touches.trip _ ?_)
        rw [State.state_wordSeen same]
        simpa using hout
    · exact seen.trans (State.touches_judgeDrive _ n o)

/-! ### Every event of the stations -/

theorem Move.touches {s t : State} (h : Move s t) : Touches s t := by
  cases h with
  | grant f => exact .single (.grant s f)
  | word n o => exact s.touches_stationWord n o
  | startTimeout n =>
    unfold State.startTimeout
    split
    · next hdue => exact Touches.trip _ (LifeState.out_of_eq hdue.1 rfl)
    · exact .refl
  | stopTimeout n =>
    unfold State.stopTimeout
    split
    · next hdue => exact Touches.serve _ nofun rfl (LifeState.out_of_eq hdue.1 rfl) rfl rfl rfl
    · exact .refl
  | dwellExpiry n =>
    unfold State.dwellExpiry
    split
    · next hdue => split <;> exact Touches.serve _ nofun rfl (LifeState.out_of_eq hdue.1 rfl) rfl rfl rfl
    · exact .refl
  | confirm n =>
    unfold State.confirm
    dsimp only
    split
    · exact .refl
    · split
      · exact Touches.put rfl rfl rfl rfl
      · exact Touches.put rfl rfl rfl rfl
      all_goals exact .refl
  | lock n on =>
    unfold State.operatorLock
    split
    · exact .refl
    · exact s.touches_changeLocks n _ _ _
  | tripCleared n htripped =>
    refine Touches.move _ nofun rfl fun hlaw => ?_
    obtain ⟨hlock, -⟩ := hlaw
    have unlocked : ¬(s.station n).locks.empty = false := fun h => by
      have := hlock.mpr h
      rw [htripped] at this
      cases this
    simp [Station.outLaw, Station.tripCleared, Station.toDwell, unlocked]

theorem Touches.takeClaims {claim : State → StationNo → State} (hclaim : ∀ s n, Touches s (claim s n)) (turns : List Turn)
    (waiting : List StationNo) (begun : Bool) (s : State) : Touches s (State.takeClaims claim turns waiting begun s) :=
  State.takeClaims_keeps claim (Touches s) (fun t n h => h.trans (hclaim t n)) (fun t f h => h.tail (.grant t f)) turns
    waiting begun s .refl

theorem Touches.presentInTurns (s : State) (turns : List Turn) (x : Targets) : Touches s (s.presentInTurns turns x) :=
  Touches.takeClaims (fun s n => s.touches_setTarget n _) _ _ _ _

theorem Touches.presentTargets (s : State) (x : Targets) : Touches s (s.presentTargets x) :=
  .head (.other s s.turns.tail s.incident s.view s.airflow) (Touches.presentInTurns _ _ _)

/-- The incident, its view and the monitor change, records are handed, and targets are presented. -/
theorem Touches.incident (s : State) (i : Option Incident) (v : Option (Table Bool 64)) (m : AirflowMonitor)
    (l : List ReportRecord) (x : Targets) :
    Touches s (State.presentTargets { s with incident := i, view := v, airflow := m, writer := s.writer.handAll l } x) :=
  .head (.other s s.turns i v m) (.head (.hand _ l) (Touches.presentTargets _ x))

theorem Claims.touches {s t : State} (h : Claims s t) : Touches s t := by
  cases h with
  | move m => exact m.touches
  | absorbed n c =>
    exact .head (.other s s.turns.tail s.incident s.view s.airflow)
      (Touches.takeClaims (fun s m => s.touches_setRequest m c) _ _ _ _)
  | plan i r _ => exact Touches.incident s _ _ _ _ _
  | release i => exact Touches.incident s none none _ [_] _
  | boost i _ => exact Touches.incident s (some { i with boost := true }) s.view _ _ _
  | seek _ o _ _ => exact .head (.hand s _) (Touches.presentInTurns _ _ _)

end Sys2Proof.Machine
end

section
/-! PROOF. The start queues and the slots (O54, O55): each part of what the stations take keeps the laws, and so does
every other part of a command. -/

namespace Sys2Proof.Machine

open Sys2Proof

/-! ### Operations of a start queue (R59-R62) -/

/-- A list of entries in the order of R59. -/
def Ordered (q : List QueueEntry) : Prop := q.Pairwise (fun a b => a.before b = true)

theorem EntryClass.before_iff (a b : EntryClass) :
    a.before b = true ↔ (∃ r r', a = .plan r ∧ b = .plan r' ∧ r < r') ∨ ∃ r, a = .plan r ∧ b = .control := by
  cases a <;> cases b <;> simp [EntryClass.before]

theorem QueueEntry.before_iff (a b : QueueEntry) : a.before b = true ↔
    (∃ r r', a.cls = .plan r ∧ b.cls = .plan r' ∧ r < r') ∨ (∃ r, a.cls = .plan r ∧ b.cls = .control)
      ∨ (a.cls = b.cls ∧ (a.entryTime < b.entryTime ∨ (a.entryTime = b.entryTime ∧ a.station.val < b.station.val))) := by
  unfold QueueEntry.before
  simp only [Bool.or_eq_true, Bool.and_eq_true, decide_eq_true_eq, EntryClass.before_iff, Fin.lt_def, or_assoc]

theorem QueueEntry.before_trans {a b c : QueueEntry} (h : a.before b = true) (h' : b.before c = true) :
    a.before c = true := by
  rw [QueueEntry.before_iff] at *
  cases ha : a.cls <;> cases hb : b.cls <;> cases hc : c.cls <;> simp [ha, hb, hc] at h h' ⊢ <;> omega

/-- Two entries of different stations stand one ahead of the other. -/
theorem QueueEntry.before_of_not_before {a b : QueueEntry} (hne : a.station ≠ b.station) (h : ¬a.before b = true) :
    b.before a = true := by
  have hval : a.station.val ≠ b.station.val := fun hv => hne (Fin.ext hv)
  rw [QueueEntry.before_iff] at *
  cases ha : a.cls <;> cases hb : b.cls <;> simp [ha, hb] at h ⊢ <;> omega

theorem queueInsert_perm (e : QueueEntry) (q : List QueueEntry) : (queueInsert e q).Perm (e :: q) := by
  induction q with
  | nil => exact .refl _
  | cons x rest ih =>
    unfold queueInsert
    split
    · exact .refl _
    · exact (ih.cons x).trans (.swap e x rest)

theorem ordered_queueInsert {e : QueueEntry} {q : List QueueEntry} (hnew : ∀ x ∈ q, x.station ≠ e.station)
    (h : Ordered q) : Ordered (queueInsert e q) := by
  induction q with
  | nil => exact List.pairwise_singleton _ _
  | cons x rest ih =>
    obtain ⟨hx, hrest⟩ := List.pairwise_cons.mp h
    unfold queueInsert
    split
    · next hbefore =>
      refine List.pairwise_cons.mpr ⟨fun y hy => ?_, h⟩
      rcases List.mem_cons.mp hy with rfl | hy
      · exact hbefore
      · exact QueueEntry.before_trans hbefore (hx y hy)
    · next hbefore =>
      refine List.pairwise_cons.mpr ⟨fun y hy => ?_, ih (fun y hy => hnew y (List.mem_cons_of_mem _ hy)) hrest⟩
      rcases (mem_queueInsert e y rest).mp hy with rfl | hy
      · exact QueueEntry.before_of_not_before (hnew x List.mem_cons_self).symm hbefore
      · exact hx y hy

theorem queueRemove_sublist (n : StationNo) (q : List QueueEntry) : (queueRemove n q).Sublist q := List.filter_sublist

theorem ordered_queueRemove (n : StationNo) {q : List QueueEntry} (h : Ordered q) : Ordered (queueRemove n q) :=
  h.sublist (queueRemove_sublist n q)

theorem queueFind_some {n : StationNo} {q : List QueueEntry} {e : QueueEntry} (h : queueFind n q = some e) :
    e ∈ q ∧ e.station = n := by
  unfold queueFind at h
  exact ⟨List.mem_of_find?_eq_some h, by simpa using List.find?_some h⟩

/-- Without the entry of a station in the queue, a queue of distinct stations is that entry and the rest. -/
theorem perm_cons_queueRemove {q : List QueueEntry} {e : QueueEntry} (hq : (q.map QueueEntry.station).Nodup)
    (he : e ∈ q) : q.Perm (e :: queueRemove e.station q) := by
  induction q with
  | nil => cases he
  | cons x rest ih =>
    rw [List.map_cons, List.nodup_cons] at hq
    obtain ⟨hx, hrest⟩ := hq
    rcases List.mem_cons.mp he with rfl | hmem
    · have same : queueRemove e.station rest = rest :=
        List.filter_eq_self.mpr fun y hy => bne_iff_ne.mpr fun h => hx (List.mem_map.mpr ⟨y, hy, h⟩)
      simp [queueRemove] at same ⊢
      rw [List.filter_eq_self.mpr fun y hy => by simpa using same y hy]
    · have hne : x.station ≠ e.station := fun h => hx (List.mem_map.mpr ⟨e, hmem, h.symm⟩)
      have keep : queueRemove e.station (x :: rest) = x :: queueRemove e.station rest := by
        simp [queueRemove, hne]
      rw [keep]
      exact ((ih hrest hmem).cons x).trans (.swap e x _)

/-- A retarget changes no station of the queue. -/
theorem queueRetarget_stations (n : StationNo) (c : FanCommand) (cls : EntryClass) {q : List QueueEntry}
    (hq : (q.map QueueEntry.station).Nodup) :
    ((queueRetarget n c cls q).map QueueEntry.station).Perm (q.map QueueEntry.station) := by
  unfold queueRetarget
  split
  · exact .refl _
  · next e hfind =>
    obtain ⟨he, rfl⟩ := queueFind_some hfind
    split
    · rw [List.map_map]
      refine List.Perm.of_eq (List.map_congr_left fun x _ => ?_)
      dsimp only [Function.comp]
      split <;> rfl
    · have inserted := (queueInsert_perm { e with target := c, cls := cls } (queueRemove e.station q)).map QueueEntry.station
      exact inserted.trans ((perm_cons_queueRemove hq he).map QueueEntry.station).symm

/-- The entries after a retarget: the others as they are, the station's with its kind and entry time. -/
theorem mem_queueRetarget {n : StationNo} {c : FanCommand} {cls : EntryClass} {q : List QueueEntry} {x : QueueEntry}
    (hq : (q.map QueueEntry.station).Nodup) (hx : x ∈ queueRetarget n c cls q) :
    (x ∈ q ∧ x.station ≠ n) ∨ ∃ e ∈ q, e.station = n ∧ x = { e with target := c, cls := cls } := by
  unfold queueRetarget at hx
  split at hx
  · next hfind =>
    refine .inl ⟨hx, fun h => ?_⟩
    unfold queueFind at hfind
    have := List.find?_eq_none.mp hfind x hx
    simp [h] at this
  · next e hfind =>
    obtain ⟨he, rfl⟩ := queueFind_some hfind
    split at hx
    · next hcls =>
      obtain ⟨y, hy, rfl⟩ := List.mem_map.mp hx
      split
      · next hstation =>
        have hye : y = e := List.inj_on_of_nodup_map hq hy he hstation
        subst hye
        exact .inr ⟨y, he, rfl, by rw [← hcls]⟩
      · next hstation => exact .inl ⟨hy, hstation⟩
    · rcases (mem_queueInsert _ x _).mp hx with rfl | hx
      · exact .inr ⟨e, he, rfl, rfl⟩
      · exact .inl ((mem_queueRemove _ x q).mp hx)

theorem ordered_queueRetarget (n : StationNo) (c : FanCommand) (cls : EntryClass) {q : List QueueEntry} (h : Ordered q) :
    Ordered (queueRetarget n c cls q) := by
  unfold queueRetarget
  split
  · exact h
  · next e hfind =>
    obtain ⟨-, rfl⟩ := queueFind_some hfind
    split
    · refine List.pairwise_map.mpr (List.Pairwise.imp (fun {a b} hab => ?_) h)
      rw [QueueEntry.before_iff] at hab ⊢
      split <;> split <;> exact hab
    · exact ordered_queueInsert (fun x hx => ((mem_queueRemove _ x q).mp hx).2) (ordered_queueRemove _ h)

/-! ### What a transition asks of its feeder -/

/-- The queue of a station's feeder once the station has left the state it was in. -/
def State.queueLeft (s : State) (n : StationNo) : List QueueEntry :=
  if (s.station n).state = .queued then queueRemove n (s.feeder (s.feederNo n)).queue else (s.feeder (s.feederNo n)).queue

theorem feederAfterMove_queue (s : State) (n : StationNo) (d : Station) :
    (feederAfterMove s n (s.station n) d).queue
      = if d.state = .queued then queueInsert (queueEntryFor s n d) (s.queueLeft n) else s.queueLeft n := rfl

theorem State.queueLeft_sublist (s : State) (n : StationNo) : (s.queueLeft n).Sublist (s.feeder (s.feederNo n)).queue := by
  unfold State.queueLeft
  split
  · exact queueRemove_sublist n _
  · exact List.Sublist.refl _

/-- The stations in the queues are those in QUEUED, each in its own feeder's queue and once (R24). -/
def State.queuesMatch (s : State) : Prop :=
  (∀ f n, n ∈ (s.feeder f).queued ↔ ((s.station n).state = .queued ∧ s.feederNo n = f))
    ∧ ∀ f, (s.feeder f).queued.Nodup

theorem State.queuesMatch.mem_queueLeft {s : State} (h : s.queuesMatch) (n : StationNo) (x : QueueEntry) :
    x ∈ s.queueLeft n ↔ x ∈ (s.feeder (s.feederNo n)).queue ∧ x.station ≠ n := by
  obtain ⟨hmem, -⟩ := h
  unfold State.queueLeft
  split
  · exact mem_queueRemove n x _
  · next hstate =>
    refine ⟨fun hx => ⟨hx, ?_⟩, fun hx => hx.1⟩
    rintro rfl
    exact hstate ((hmem _ _).mp (List.mem_map.mpr ⟨x, hx, rfl⟩)).1

/-- The entries of a station's feeder after a transition: the others' as they are, and its own while it is in QUEUED. -/
theorem State.queuesMatch.mem_moved {s : State} (h : s.queuesMatch) (n : StationNo) (d : Station) (x : QueueEntry) :
    x ∈ (feederAfterMove s n (s.station n) d).queue
      ↔ (d.state = .queued ∧ x = queueEntryFor s n d) ∨ (x ∈ (s.feeder (s.feederNo n)).queue ∧ x.station ≠ n) := by
  rw [feederAfterMove_queue]
  split
  · next hq => simp only [mem_queueInsert, h.mem_queueLeft, hq, true_and]
  · next hq => simp only [h.mem_queueLeft, hq, false_and, false_or]

theorem State.queuesMatch.move {s : State} (h : s.queuesMatch) (n : StationNo) (d : Station) (l : List ReportRecord) :
    (s.moveStation n d l).queuesMatch := by
  have hmoved := h.mem_moved n d
  have hleft := h.mem_queueLeft n
  obtain ⟨hmem, hnodup⟩ := h
  have hno : ∀ m, (s.moveStation n d l).feederNo m = s.feederNo m := fun _ => rfl
  have own : ∀ m, m ∈ (feederAfterMove s n (s.station n) d).queued
      ↔ (m = n ∧ d.state = .queued) ∨ (m ≠ n ∧ m ∈ (s.feeder (s.feederNo n)).queued) := by
    intro m
    simp only [Feeder.queued, List.mem_map, hmoved]
    constructor
    · rintro ⟨x, ⟨hd, rfl⟩ | ⟨hx, hne⟩, rfl⟩
      · exact .inl ⟨rfl, hd⟩
      · exact .inr ⟨hne, x, hx, rfl⟩
    · rintro (⟨rfl, hd⟩ | ⟨hne, x, hx, rfl⟩)
      · exact ⟨_, .inl ⟨hd, rfl⟩, rfl⟩
      · exact ⟨x, .inr ⟨hx, hne⟩, rfl⟩
  refine ⟨fun f m => ?_, fun f => ?_⟩
  · rw [hno]
    by_cases hf : f = s.feederNo n
    · subst hf
      rw [State.feeder_moveStation_self, own]
      by_cases hm : m = n
      · subst hm
        simp
      · rw [State.station_moveStation_ne s d l hm, hmem]
        simp [hm]
    · rw [State.feeder_moveStation_ne s d l hf, hmem]
      by_cases hm : m = n
      · subst hm
        simp [Ne.symm hf]
      · rw [State.station_moveStation_ne s d l hm]
  · by_cases hf : f = s.feederNo n
    · subst hf
      have left : ((s.queueLeft n).map QueueEntry.station).Nodup :=
        (hnodup (s.feederNo n)).sublist ((s.queueLeft_sublist n).map _)
      rw [State.feeder_moveStation_self]
      unfold Feeder.queued
      rw [feederAfterMove_queue]
      split
      · refine ((queueInsert_perm _ _).map QueueEntry.station).nodup_iff.mpr (List.nodup_cons.mpr ⟨?_, left⟩)
        intro hin
        obtain ⟨x, hx, hxn⟩ := List.mem_map.mp hin
        exact ((hleft x).mp hx).2 hxn
      · exact left
    · rw [State.feeder_moveStation_ne s d l hf]
      exact hnodup f

theorem State.feeder_retarget_self (s : State) (n : StationNo) :
    ((s.retarget n).feeder (s.feederNo n)).queue
      = queueRetarget n (s.station n).requested (s.station n).entryClass (s.feeder (s.feederNo n)).queue := by
  simp [State.feeder, State.retarget]

theorem State.feeder_retarget_ne (s : State) {n : StationNo} {f : FeederNo} (h : f ≠ s.feederNo n) :
    (s.retarget n).feeder f = s.feeder f := by
  simp [State.feeder, State.retarget, Table.nth_put_ne _ _ h]

theorem State.slotsInUse_retarget (s : State) (n : StationNo) (f : FeederNo) :
    ((s.retarget n).feeder f).slotsInUse = (s.feeder f).slotsInUse := by
  by_cases h : f = s.feederNo n
  · subst h
    simp [State.feeder, State.retarget]
  · rw [s.feeder_retarget_ne h]

theorem State.queuesMatch.retarget {s : State} (h : s.queuesMatch) (n : StationNo) : (s.retarget n).queuesMatch := by
  obtain ⟨hmem, hnodup⟩ := h
  have perm : ∀ f, ((s.retarget n).feeder f).queued.Perm (s.feeder f).queued := by
    intro f
    by_cases hf : f = s.feederNo n
    · subst hf
      unfold Feeder.queued
      rw [s.feeder_retarget_self]
      exact queueRetarget_stations n _ _ (hnodup _)
    · rw [s.feeder_retarget_ne hf]
  exact ⟨fun f m => (perm f).mem_iff.trans (hmem f m), fun f => (perm f).nodup_iff.mpr (hnodup f)⟩

/-! ### Grants -/

/-- A grant is made of the head of the feeder's queue, with a slot to spare, or nothing is granted. -/
theorem State.grant_cases (s : State) (f : FeederNo) :
    s.grant f = s ∨ ∃ e rest, (s.feeder f).queue = e :: rest ∧ s.grantReady f = true ∧ s.grant f = s.grantEntry f e rest := by
  unfold State.grant
  split
  · exact .inl rfl
  · next e rest hq =>
    split
    · next hready => exact .inr ⟨e, rest, hq, hready, rfl⟩
    · exact .inl rfl

theorem State.grantReady_slots {s : State} {f : FeederNo} (h : s.grantReady f = true) :
    (s.feeder f).slotsInUse < (Setup.feeder s.copy f.val).slots := by
  unfold State.grantReady at h
  simp only [Bool.and_eq_true, decide_eq_true_eq] at h
  exact h.1.1.2

theorem State.feeder_grantEntry_self (s : State) (f : FeederNo) (e : QueueEntry) (rest : List QueueEntry) :
    (s.grantEntry f e rest).feeder f = { s.feeder f with
      queue := rest, slotsInUse := (s.feeder f).slotsInUse + 1
      spacing := spacingAfterGrant (Setup.feeder s.copy f.val).spacing (s.feeder f).spacing } := by
  simp [State.feeder, State.grantEntry, State.enterState, State.putStation, State.putFeeder]

theorem State.feeder_grantEntry_ne (s : State) {f f' : FeederNo} (e : QueueEntry) (rest : List QueueEntry) (h : f' ≠ f) :
    (s.grantEntry f e rest).feeder f' = s.feeder f' := by
  simp [State.feeder, State.grantEntry, State.enterState, State.putStation, State.putFeeder, Table.nth_put_ne _ _ h]

theorem State.station_grantEntry_ne (s : State) (f : FeederNo) {e : QueueEntry} (rest : List QueueEntry) {m : StationNo}
    (h : m ≠ e.station) : (s.grantEntry f e rest).station m = s.station m := by
  unfold State.grantEntry State.enterState
  exact State.station_putStation_ne _ _ h

theorem State.state_grantEntry_self (s : State) (f : FeederNo) (e : QueueEntry) (rest : List QueueEntry) :
    ((s.grantEntry f e rest).station e.station).state = .starting := by
  unfold State.grantEntry State.enterState
  rw [State.state_putStation_self]
  rfl

/-- The station of a queue's head waits in QUEUED on that feeder, and nowhere else in the queue. -/
theorem State.queuesMatch.head {s : State} (h : s.queuesMatch) {f : FeederNo} {e : QueueEntry} {rest : List QueueEntry}
    (hq : (s.feeder f).queue = e :: rest) :
    (s.station e.station).state = .queued ∧ s.feederNo e.station = f ∧ e.station ∉ rest.map QueueEntry.station := by
  obtain ⟨hmem, hnodup⟩ := h
  have hf := hnodup f
  rw [Feeder.queued, hq, List.map_cons, List.nodup_cons] at hf
  obtain ⟨hstate, hno⟩ := (hmem f e.station).mp (by rw [Feeder.queued, hq]; exact List.mem_cons_self)
  exact ⟨hstate, hno, hf.1⟩

theorem State.queuesMatch.grantEntry {s : State} (h : s.queuesMatch) {f : FeederNo} {e : QueueEntry}
    {rest : List QueueEntry} (hq : (s.feeder f).queue = e :: rest) : (s.grantEntry f e rest).queuesMatch := by
  obtain ⟨-, hno, hnew⟩ := h.head hq
  obtain ⟨hmem, hnodup⟩ := h
  have same : ∀ m, (s.grantEntry f e rest).feederNo m = s.feederNo m := fun _ => rfl
  have hcons : (s.feeder f).queued = e.station :: rest.map QueueEntry.station := by rw [Feeder.queued, hq]; rfl
  refine ⟨fun f' m => ?_, fun f' => ?_⟩
  · rw [same]
    by_cases hm : m = e.station
    · subst hm
      rw [s.state_grantEntry_self]
      by_cases hf : f' = f
      · subst hf
        rw [s.feeder_grantEntry_self]
        exact ⟨fun hin => absurd hin hnew, nofun⟩
      · rw [s.feeder_grantEntry_ne e rest hf, hmem, hno]
        exact ⟨fun hin => absurd hin.2.symm hf, nofun⟩
    · rw [s.station_grantEntry_ne f rest hm]
      by_cases hf : f' = f
      · subst hf
        rw [s.feeder_grantEntry_self, ← hmem, hcons]
        simp [Feeder.queued, hm]
      · rw [s.feeder_grantEntry_ne e rest hf, hmem]
  · by_cases hf : f' = f
    · subst hf
      rw [s.feeder_grantEntry_self]
      have := hnodup f'
      rw [hcons] at this
      exact (List.nodup_cons.mp this).2
    · rw [s.feeder_grantEntry_ne e rest hf]
      exact hnodup f'

theorem State.queuesMatch.grant {s : State} (h : s.queuesMatch) (f : FeederNo) : (s.grant f).queuesMatch := by
  rcases s.grant_cases f with heq | ⟨e, rest, hq, -, heq⟩ <;> rw [heq]
  · exact h
  · exact h.grantEntry hq

/-! ### Parts that leave the stations' states and the queues -/

/-- The stations are in the states they were in, the queues and slots stand as they stood, on the same setup. -/
structure State.still (s t : State) : Prop where
  state : ∀ n, (t.station n).state = (s.station n).state
  queue : ∀ f, (t.feeder f).queue = (s.feeder f).queue
  slots : ∀ f, (t.feeder f).slotsInUse = (s.feeder f).slotsInUse
  copy : t.copy = s.copy
  part : t.part = s.part
  tenths : s.tenths ≤ t.tenths

theorem State.still.of_eq {s t : State} (hst : t.stations = s.stations) (hf : t.feeders = s.feeders) (hc : t.copy = s.copy)
    (hp : t.part = s.part) (ht : t.tenths = s.tenths) : s.still t :=
  ⟨fun n => by unfold State.station; rw [hst], fun f => by unfold State.feeder; rw [hf],
    fun f => by unfold State.feeder; rw [hf], hc, hp, ht.ge⟩

theorem State.still.queuesMatch {s t : State} (h : s.still t) (hs : s.queuesMatch) : t.queuesMatch := by
  obtain ⟨hmem, hnodup⟩ := hs
  have hno : ∀ n, t.feederNo n = s.feederNo n := fun n => by unfold State.feederNo; rw [h.copy]
  refine ⟨fun f n => ?_, fun f => ?_⟩
  · rw [h.state, hno, ← hmem, Feeder.queued, h.queue, Feeder.queued]
  · rw [Feeder.queued, h.queue]
    exact hnodup f

theorem State.still.orderLaw {s t : State} (h : s.still t) (hs : s.orderLaw) : t.orderLaw := by
  intro f
  obtain ⟨hord, htime⟩ := hs f
  rw [h.queue]
  exact ⟨hord, fun e he => (htime e he).trans h.tenths⟩

theorem State.still.slotLaw {s t : State} (h : s.still t) (hs : s.slotLaw) : t.slotLaw := by
  intro f
  rw [h.slots, hs f]
  unfold State.startingOn State.feederNo
  simp only [h.state, h.copy]

/-- The transition of a station keeps entry times. -/
theorem State.orderLaw.move {s : State} (h : s.orderLaw) (hq : s.queuesMatch) (n : StationNo) (d : Station)
    (l : List ReportRecord) : (s.moveStation n d l).orderLaw := by
  intro f
  by_cases hf : f = s.feederNo n
  · subst hf
    obtain ⟨hord, htime⟩ := h (s.feederNo n)
    rw [State.feeder_moveStation_self]
    refine ⟨?_, fun e he => ?_⟩
    · have left := List.Pairwise.sublist (s.queueLeft_sublist n) hord
      rw [feederAfterMove_queue]
      split
      · exact ordered_queueInsert (fun x hx => ((hq.mem_queueLeft n x).mp hx).2) left
      · exact left
    · rcases (hq.mem_moved n d e).mp he with ⟨-, rfl⟩ | ⟨he, -⟩
      · exact le_refl _
      · exact htime e he
  · rw [State.feeder_moveStation_ne s d l hf]
    exact h f

theorem State.orderLaw.retarget {s : State} (h : s.orderLaw) (hq : s.queuesMatch) (n : StationNo) :
    (s.retarget n).orderLaw := by
  intro f
  by_cases hf : f = s.feederNo n
  · subst hf
    obtain ⟨hord, htime⟩ := h (s.feederNo n)
    rw [s.feeder_retarget_self]
    refine ⟨ordered_queueRetarget n _ _ hord, fun e he => ?_⟩
    rcases mem_queueRetarget (hq.2 _) he with ⟨he, -⟩ | ⟨y, hy, -, rfl⟩
    · exact htime e he
    · exact htime y hy
  · rw [s.feeder_retarget_ne hf]
    exact h f

theorem State.orderLaw.grant {s : State} (h : s.orderLaw) (f : FeederNo) : (s.grant f).orderLaw := by
  rcases s.grant_cases f with heq | ⟨e, rest, hq, -, heq⟩ <;> rw [heq]
  · exact h
  intro f'
  by_cases hf : f' = f
  · subst hf
    obtain ⟨hord, htime⟩ := h f'
    rw [hq] at hord htime
    rw [s.feeder_grantEntry_self]
    exact ⟨(List.pairwise_cons.mp hord).2, fun x hx => htime x (List.mem_cons_of_mem _ hx)⟩
  · rw [s.feeder_grantEntry_ne e rest hf]
    exact h f'

/-! ### Slots in use (R56) -/

/-- Two conditions that agree but at one member select as many others. -/
theorem length_filter_except {α : Type} [DecidableEq α] {p q : α → Bool} {l : List α} {a : α} (hl : l.Nodup) (ha : a ∈ l)
    (h : ∀ x, x ≠ a → p x = q x) :
    (l.filter p).length + (if q a then 1 else 0) = (l.filter q).length + (if p a then 1 else 0) := by
  induction l with
  | nil => cases ha
  | cons x rest ih =>
    obtain ⟨hx, hrest⟩ := List.nodup_cons.mp hl
    rcases List.mem_cons.mp ha with rfl | hmem
    · have same : rest.filter p = rest.filter q :=
        List.filter_congr fun y hy => h y fun hya => hx (hya ▸ hy)
      rw [List.filter_cons, List.filter_cons, same]
      split <;> split <;> simp
    · have hne : x ≠ a := fun hxa => hx (hxa ▸ hmem)
      have := ih hrest hmem
      rw [List.filter_cons, List.filter_cons, h x hne]
      split
      · simp only [List.length_cons]
        omega
      · exact this

/-- A station counts among its feeder's stations in STARTING. -/
def State.starts (s : State) (f : FeederNo) (n : StationNo) : Bool := (s.station n).state == .starting && s.feederNo n == f

/-- When one station's state changes, the number of a feeder's stations in STARTING changes by it. -/
theorem State.startingOn_change {s t : State} (n : StationNo) (f : FeederNo)
    (h : ∀ m, m ≠ n → t.starts f m = s.starts f m) :
    t.startingOn f + (if s.starts f n then 1 else 0) = s.startingOn f + (if t.starts f n then 1 else 0) :=
  length_filter_except (List.nodup_finRange 64) (List.mem_finRange n) h

theorem State.starts_iff (s : State) (f : FeederNo) (n : StationNo) :
    s.starts f n = true ↔ (s.station n).state = .starting ∧ s.feederNo n = f := by
  simp [State.starts]

theorem State.slotLaw.move {s : State} (h : s.slotLaw) (n : StationNo) (d : Station) (l : List ReportRecord)
    (hd : d.state ≠ .starting) : (s.moveStation n d l).slotLaw := by
  intro f
  have change := State.startingOn_change (s := s) (t := s.moveStation n d l) n f fun m hm => by
    unfold State.starts
    rw [State.station_moveStation_ne s d l hm]
    rfl
  have after : ¬(s.moveStation n d l).starts f n = true := by
    rw [State.starts_iff, State.state_moveStation_self]
    exact fun h => hd h.1
  rw [if_neg after] at change
  have before := h f
  by_cases hf : f = s.feederNo n
  · subst hf
    rw [State.feeder_moveStation_self]
    dsimp only [feederAfterMove]
    by_cases hstate : (s.station n).state = .starting
    · rw [if_pos ((s.starts_iff _ n).mpr ⟨hstate, rfl⟩)] at change
      rw [if_pos hstate]
      omega
    · rw [if_neg (mt (s.starts_iff _ n).mp fun h => hstate h.1)] at change
      rw [if_neg hstate]
      omega
  · rw [if_neg (mt (s.starts_iff _ n).mp fun h => hf h.2.symm)] at change
    rw [State.feeder_moveStation_ne s d l hf]
    omega

theorem State.slotLaw.grant {s : State} (h : s.slotLaw) (hqueue : s.queuesMatch) (f : FeederNo) : (s.grant f).slotLaw := by
  rcases s.grant_cases f with heq | ⟨e, rest, hq, -, heq⟩ <;> rw [heq]
  · exact h
  obtain ⟨hstate, hno, -⟩ := hqueue.head hq
  intro f'
  have change := State.startingOn_change (s := s) (t := s.grantEntry f e rest) e.station f' fun m hm => by
    unfold State.starts
    rw [s.station_grantEntry_ne f rest hm]
    rfl
  have was : ¬s.starts f' e.station = true := by
    rw [State.starts_iff, hstate]
    exact fun h => nomatch h.1
  have before := h f'
  rw [if_neg was] at change
  by_cases hf : f' = f
  · subst hf
    rw [if_pos ((State.starts_iff _ _ _).mpr ⟨s.state_grantEntry_self _ e rest, hno⟩)] at change
    rw [s.feeder_grantEntry_self]
    dsimp only
    omega
  · have after : ¬(s.grantEntry f e rest).starts f' e.station = true := by
      rw [State.starts_iff]
      exact fun h => hf (h.2.symm.trans hno)
    rw [if_neg after] at change
    rw [s.feeder_grantEntry_ne e rest hf]
    omega

/-- Slots in use stay within the start slots of each feeder (R56). -/
def State.slotsWithin (s : State) : Prop := ∀ f, (s.feeder f).slotsInUse ≤ (Setup.feeder s.copy f.val).slots

theorem State.slotsWithin.move {s : State} (h : s.slotsWithin) (n : StationNo) (d : Station) (l : List ReportRecord) :
    (s.moveStation n d l).slotsWithin := by
  intro f
  show _ ≤ (Setup.feeder s.copy f.val).slots
  have before := h f
  by_cases hf : f = s.feederNo n
  · subst hf
    rw [State.feeder_moveStation_self]
    dsimp only [feederAfterMove]
    split <;> omega
  · rw [State.feeder_moveStation_ne s d l hf]
    exact before

theorem State.slotsWithin.grant {s : State} (h : s.slotsWithin) (f : FeederNo) : (s.grant f).slotsWithin := by
  rcases s.grant_cases f with heq | ⟨e, rest, hq, hready, heq⟩ <;> rw [heq]
  · exact h
  intro f'
  show _ ≤ (Setup.feeder s.copy f'.val).slots
  by_cases hf : f' = f
  · subst hf
    rw [s.feeder_grantEntry_self]
    exact State.grantReady_slots hready
  · rw [s.feeder_grantEntry_ne e rest hf]
    exact h f'

/-! ### Every part of what the stations take -/

theorem Touch.still_or {s t : State} (h : Touch s t) : s.still t ∨ (∃ n d l, d.state ≠ .starting ∧ t = s.moveStation n d l)
    ∨ (∃ n, t = s.retarget n) ∨ ∃ f, t = s.grant f := by
  cases h with
  | put n d hstate _ _ =>
    refine .inl ⟨fun m => ?_, fun _ => rfl, fun _ => rfl, rfl, rfl, le_refl _⟩
    by_cases hm : m = n
    · subst hm
      rw [State.state_putStation_self, hstate]
    · rw [State.station_putStation_ne s d hm]
  | move n d l hstart _ _ => exact .inr (.inl ⟨n, d, l, hstart, rfl⟩)
  | retarget n => exact .inr (.inr (.inl ⟨n, rfl⟩))
  | grant f => exact .inr (.inr (.inr ⟨f, rfl⟩))
  | hand l => exact .inl (.of_eq rfl rfl rfl rfl rfl)
  | other => exact .inl (.of_eq rfl rfl rfl rfl rfl)

theorem Touch.queuesMatch {s t : State} (h : Touch s t) (hs : s.queuesMatch) : t.queuesMatch := by
  rcases h.still_or with still | ⟨n, d, l, -, rfl⟩ | ⟨n, rfl⟩ | ⟨f, rfl⟩
  · exact still.queuesMatch hs
  · exact hs.move n d l
  · exact hs.retarget n
  · exact hs.grant f

theorem Touch.orderLaw {s t : State} (h : Touch s t) (hq : s.queuesMatch) (hs : s.orderLaw) : t.orderLaw := by
  rcases h.still_or with still | ⟨n, d, l, -, rfl⟩ | ⟨n, rfl⟩ | ⟨f, rfl⟩
  · exact still.orderLaw hs
  · exact hs.move hq n d l
  · exact hs.retarget hq n
  · exact hs.grant f

theorem Touch.slotLaw {s t : State} (h : Touch s t) (hq : s.queuesMatch) (hs : s.slotLaw) : t.slotLaw := by
  rcases h.still_or with still | ⟨n, d, l, hstart, rfl⟩ | ⟨n, rfl⟩ | ⟨f, rfl⟩
  · exact still.slotLaw hs
  · exact hs.move n d l hstart
  · exact fun f => (s.slotsInUse_retarget n f).trans (hs f)
  · exact hs.grant hq f

theorem Touch.slotsWithin {s t : State} (h : Touch s t) (hs : s.slotsWithin) : t.slotsWithin := by
  rcases h.still_or with still | ⟨n, d, l, -, rfl⟩ | ⟨n, rfl⟩ | ⟨f, rfl⟩
  · intro f
    rw [still.slots, still.copy]
    exact hs f
  · exact hs.move n d l
  · exact fun f => (s.slotsInUse_retarget n f).le.trans (hs f)
  · exact hs.grant f

/-! ### Every other part of a command -/

/-- No station has left OFF or RUNNING, and no queue holds an entry, as outside GUARD (R24). -/
def State.idle (s : State) : Prop :=
  (∀ n, (s.station n).state = .off ∨ (s.station n).state = .running) ∧ ∀ f, (s.feeder f).queue = []

/-- No slot is in use, as outside GUARD (R75). -/
def State.slotsFree (s : State) : Prop := ∀ f, (s.feeder f).slotsInUse = 0

theorem State.idle_of_queueLaw {s : State} (h : s.queueLaw) (hp : s.part ≠ .guard) : s.idle := by
  obtain ⟨hmem, -, hpart⟩ := h
  refine ⟨hpart hp, fun f => ?_⟩
  cases hq : (s.feeder f).queue with
  | nil => rfl
  | cons e rest =>
    obtain ⟨hstate, -⟩ := (hmem f e.station).mp (by rw [Feeder.queued, hq]; exact List.mem_cons_self)
    rcases hpart hp e.station with h | h <;> rw [hstate] at h <;> cases h

theorem State.idle.queueLaw {s : State} (h : s.idle) : s.queueLaw := by
  obtain ⟨hstate, hqueue⟩ := h
  refine ⟨fun f n => ?_, fun f => ?_, fun _ => hstate⟩
  · rw [Feeder.queued, hqueue]
    refine ⟨nofun, fun hn => ?_⟩
    rcases hstate n with h | h <;> rw [h] at hn <;> cases hn.1
  · rw [Feeder.queued, hqueue]
    exact List.nodup_nil

theorem State.idle.orderLaw {s : State} (h : s.idle) : s.orderLaw := by
  intro f
  rw [h.2 f]
  exact ⟨.nil, nofun⟩

theorem State.idle.slotLaw {s : State} (h : s.idle) (hfree : s.slotsFree) : s.slotLaw := by
  intro f
  rw [hfree f, State.startingOn, List.filter_eq_nil_iff.mpr fun n _ => ?_]
  · rfl
  · rcases h.1 n with h | h <;> simp [h]

theorem State.slotsFree.slotBound {s : State} (h : s.slotsFree) : s.slotBound :=
  ⟨fun _ => h, fun f => by rw [h f]; exact Nat.zero_le _⟩

theorem Aside.still {s t : State} (h : Aside s t) : s.still t := by
  cases h with
  | quiet h => rw [h.frame]; exact .of_eq rfl rfl rfl rfl rfl
  | supply f fd hq hs =>
    refine ⟨fun _ => rfl, fun f' => ?_, fun f' => ?_, rfl, rfl, le_refl _⟩
    all_goals
      by_cases hf : f' = f
      · subst hf
        simp [State.feeder, State.putFeeder]
        assumption
      · simp [State.feeder, State.putFeeder, Table.nth_put_ne _ _ hf]
  | _ => exact .of_eq rfl rfl rfl rfl rfl

/-- The grant of a station's entry shows the station's word: the state stays. -/
theorem State.state_grantStation (s : State) (n m : StationNo) :
    ((s.grantStation n).station m).state = (s.station m).state := by
  show ((s.stations.put n _).nth m).state = _
  by_cases h : m = n
  · subst h
    rw [Table.nth_put_self]
  · rw [Table.nth_put_ne _ _ h]
    rfl

/-- A grant of the memory port that is no grant of a station's word leaves every station's record. -/
theorem State.grantTo_stations {s t : State} {r : Requester} (h : s.grantTo r = some t) :
    t.stations = s.stations ∨ ∃ n rest, s.writer.workList = .station n :: rest ∧ t = s.grantStation n := by
  have port : ∀ p, (s.grantPort p).stations = s.stations := by
    intro p
    unfold State.grantPort
    dsimp only
    split <;> rfl
  have record : ∀ x l, (s.grantRecord x l).stations = s.stations := by
    intro x l
    unfold State.grantRecord
    dsimp only
    split <;> rfl
  cases r with
  | scanner => cases h; exact .inl (port .scanner)
  | control => cases h; exact .inl (port .control)
  | image =>
    dsimp only [State.grantTo] at h
    unfold State.grantImage State.grantEntryAccess at h
    split at h
    · cases h; exact .inl rfl
    · split at h
      case h_1 => cases h
      case h_2 n rest hlist => cases h; exact .inr ⟨n, rest, hlist, rfl⟩
      case h_3 => cases h; exact .inl rfl
      case h_4 =>
        split at h
        · cases h
        · cases h; exact .inl (record _ _)
      case h_5 => cases h
      case h_6 => cases h; exact .inl rfl
      case h_7 => cases h; exact .inl (record _ _)
      case h_8 => cases h
      case h_9 =>
        obtain ⟨x, -, rfl⟩ := Option.map_eq_some_iff.mp h
        refine .inl ?_
        unfold State.grantSnapshot
        dsimp only
        split <;> rfl
      case h_10 => cases h; exact .inl rfl
      case h_11 => cases h; exact .inl rfl

theorem State.still_grantTo {s t : State} {r : Requester} (h : s.grantTo r = some t) :
    s.still { t with arbiter := s.arbiterAfter r } := by
  have frame := State.grantTo_frame h
  refine ⟨fun m => ?_, fun f => ?_, fun f => ?_, ?_, ?_, ?_⟩
  · show (t.station m).state = _
    rcases State.grantTo_stations h with heq | ⟨n, rest, -, rfl⟩
    · unfold State.station
      rw [heq]
    · exact s.state_grantStation n m
  all_goals rw [frame]
  all_goals rfl

theorem State.still_tick (s : State) : s.still s.tick := by
  refine ⟨fun n => ?_, fun f => ?_, fun f => ?_, rfl, rfl, Nat.le_succ _⟩ <;>
    simp [State.station, State.feeder, State.tick, Station.tick, Feeder.tick]

/-- What holds of a state outside GUARD and of the state after the reset. -/
theorem State.idle_reset (s : State) : s.resetPart.idle ∧ s.resetPart.slotsFree := by
  have station : ∀ n, s.resetPart.station n = Station.reset := fun n => Table.nth_replicate _ _
  have feeder : ∀ f, s.resetPart.feeder f = Feeder.reset := fun f => Table.nth_replicate _ _
  refine ⟨⟨fun n => .inl ?_, fun f => ?_⟩, fun f => ?_⟩
  · rw [station]; rfl
  · rw [feeder]; rfl
  · rw [feeder]; rfl

/-- The records of the stations and feeders that stay at their part of the setup. -/
theorem State.idle_of_eq {s t : State} (hst : t.stations = s.stations) (hf : t.feeders = s.feeders) :
    (s.idle → t.idle) ∧ (s.slotsFree → t.slotsFree) := by
  unfold State.idle State.slotsFree State.station State.feeder
  rw [hst, hf]
  exact ⟨id, id⟩

theorem Station.readIn_state (w : Word) : (Station.readIn w).state = .off ∨ (Station.readIn w).state = .running := by
  unfold Station.readIn
  dsimp only
  split
  · exact .inl rfl
  · exact .inr rfl

theorem State.idle_readIn (s : State) (n : StationNo) (w : Word) :
    (s.idle → (s.readInStation n w).idle) ∧ (s.slotsFree → (s.readInStation n w).slotsFree) := by
  refine ⟨fun h => ⟨fun m => ?_, h.2⟩, id⟩
  show ((s.stations.put n _).nth m).state = _ ∨ ((s.stations.put n _).nth m).state = _
  by_cases hm : m = n
  · subst hm
    rw [Table.nth_put_self]
    exact Station.readIn_state w
  · rw [Table.nth_put_ne _ _ hm]
    exact h.1 m

theorem State.idle_enterGuard (s : State) : (s.idle → s.enterGuard.idle) ∧ s.enterGuard.slotsFree := by
  have feeder : ∀ f, s.enterGuard.feeder f = Feeder.reset := fun f => Table.nth_replicate _ _
  exact ⟨fun h => ⟨h.1, fun f => by rw [feeder]; rfl⟩, fun f => by rw [feeder]; rfl⟩

/-- An act leaves the stations' states, the queues and the slots, or is a claim in GUARD, or brings a part outside GUARD
from idle stations to idle stations. -/
theorem Act.still_or {s t : State} (h : Act s t) : s.still t ∨ (s.part = .guard ∧ Claims s t)
    ∨ (((s.part ≠ .guard → s.idle) → t.idle) ∧ ((s.part ≠ .guard → s.slotsFree) → t.slotsFree)) := by
  have outside : s.part ≠ .guard → (s.idle → t.idle) ∧ (s.slotsFree → t.slotsFree) →
      ((s.part ≠ .guard → s.idle) → t.idle) ∧ ((s.part ≠ .guard → s.slotsFree) → t.slotsFree) :=
    fun hne h => ⟨fun hi => h.1 (hi hne), fun hi => h.2 (hi hne)⟩
  cases h with
  | claims hg h => exact .inr (.inl ⟨hg, h⟩)
  | tick => exact .inl s.still_tick
  | memoryGrant _ _ ht => exact .inl (State.still_grantTo ht)
  | tail => exact .inl (.of_eq s.finish_stations s.finish_feeders s.finish_copy s.finish_part s.finish_tenths)
  | recordHead => exact .inl (.of_eq s.finish_stations s.finish_feeders s.finish_copy s.finish_part s.finish_tenths)
  | snapshotDone => exact .inl (.of_eq s.finish_stations s.finish_feeders s.finish_copy s.finish_part s.finish_tenths)
  | recordDue => rw [s.recordDue_frame]; exact .inl (.of_eq rfl rfl rfl rfl rfl)
  | overflow => rw [s.overflowTurn_frame]; exact .inl (.of_eq rfl rfl rfl rfl rfl)
  | copied c hp => exact .inr (.inr (outside (by rw [hp]; nofun) (State.idle_of_eq rfl rfl)))
  | closeSucceeds d hp => exact .inr (.inr (outside (by rw [hp]; nofun) (State.idle_of_eq rfl rfl)))
  | readIn n w hp => exact .inr (.inr (outside (by rw [hp]; nofun) (s.idle_readIn n w)))
  | guardEntry hp =>
    exact .inr (.inr (outside (by rw [hp]; nofun) ⟨s.idle_enterGuard.1, fun _ => s.idle_enterGuard.2⟩))
  | reset => exact .inr (.inr ⟨fun _ => s.idle_reset.1, fun _ => s.idle_reset.2⟩)
  | _ => exact .inl (.of_eq rfl rfl rfl rfl rfl)

/-! ### The laws -/

theorem State.queueLaw_of_queuesMatch {s : State} (h : s.queuesMatch) (hg : s.part = .guard) : s.queueLaw :=
  ⟨h.1, h.2, fun hne => absurd hg hne⟩

theorem State.queueLaw.queuesMatch {s : State} (h : s.queueLaw) : s.queuesMatch := ⟨h.1, h.2.1⟩

theorem State.still.queueLaw {s t : State} (h : s.still t) (hs : s.queueLaw) : t.queueLaw := by
  obtain ⟨hmem, hnodup⟩ := h.queuesMatch ⟨hs.1, hs.2.1⟩
  refine ⟨hmem, hnodup, fun hp n => ?_⟩
  rw [h.state]
  exact hs.2.2 (h.part ▸ hp) n

theorem State.still.slotBound {s t : State} (h : s.still t) (hs : s.slotBound) : t.slotBound := by
  refine ⟨fun hp f => ?_, fun f => ?_⟩
  · rw [h.slots]
    exact hs.1 (h.part ▸ hp) f
  · rw [h.slots, h.copy]
    exact hs.2 f

theorem Claims.part {s t : State} (h : Claims s t) : t.part = s.part := by rw [h.claimsOnly.frame]

/-- Through what the stations take, the queue law carries another that each part keeps under it. -/
theorem Claims.keeps_with_queues {P : State → Prop} (hP : ∀ {s t}, Touch s t → s.queuesMatch → P s → P t) {s t : State}
    (h : Claims s t) (hq : s.queuesMatch) (hs : P s) : t.queuesMatch ∧ P t :=
  h.touches.keeps (P := fun u => u.queuesMatch ∧ P u) (fun hst hu => ⟨hst.queuesMatch hu.1, hP hst hu.1 hu.2⟩) ⟨hq, hs⟩

theorem Act.queueLaw {s t : State} (h : Act s t) (hs : s.queueLaw) : t.queueLaw := by
  rcases h.still_or with still | ⟨hg, claims⟩ | ⟨idle, -⟩
  · exact still.queueLaw hs
  · have kept := claims.keeps_with_queues (P := fun _ => True) (fun _ _ _ => trivial) ⟨hs.1, hs.2.1⟩ trivial
    exact State.queueLaw_of_queuesMatch kept.1 (claims.part.trans hg)
  · exact (idle (State.idle_of_queueLaw hs)).queueLaw

theorem Act.orderLaw {s t : State} (h : Act s t) (hq : s.queueLaw) (hs : s.orderLaw) : t.orderLaw := by
  rcases h.still_or with still | ⟨-, claims⟩ | ⟨idle, -⟩
  · exact still.orderLaw hs
  · exact (claims.keeps_with_queues (fun h hq => h.orderLaw hq) ⟨hq.1, hq.2.1⟩ hs).2
  · exact (idle (State.idle_of_queueLaw hq)).orderLaw

theorem Act.slotLaw {s t : State} (h : Act s t) (hq : s.queueLaw) (hs : s.slotLaw ∧ s.slotBound) :
    t.slotLaw ∧ t.slotBound := by
  obtain ⟨hslot, hbound⟩ := hs
  rcases h.still_or with still | ⟨hg, claims⟩ | ⟨idle, free⟩
  · exact ⟨still.slotLaw hslot, still.slotBound hbound⟩
  · obtain ⟨-, slot, within⟩ := claims.keeps_with_queues (P := fun u => u.slotLaw ∧ u.slotsWithin)
      (fun h hq hu => ⟨h.slotLaw hq hu.1, h.slotsWithin hu.2⟩) ⟨hq.1, hq.2.1⟩ ⟨hslot, hbound.2⟩
    exact ⟨slot, fun hne => absurd (claims.part.trans hg) hne, within⟩
  · exact ⟨(idle (State.idle_of_queueLaw hq)).slotLaw (free hbound.1), (free hbound.1).slotBound⟩

theorem Aside.queueLaw {s t : State} (h : Aside s t) (hs : s.queueLaw) : t.queueLaw := h.still.queueLaw hs

/-- Every step keeps what its parts keep together with the queue law. -/
theorem step_keeps_with_queues {P : State → Prop} (hqueue : ∀ s rest, P s → P { s with pending := rest })
    (haside : ∀ {s t}, Aside s t → P s → P t) (hact : ∀ {s t}, Act s t → s.queueLaw → P s → P t) {s t : State}
    (hstep : step s = .next t) (hq : s.queueLaw) (hs : P s) : t.queueLaw ∧ P t :=
  step_keeps (P := fun u => u.queueLaw ∧ P u) (fun s rest h => ⟨h.1, hqueue s rest h.2⟩)
    (fun h hu => ⟨h.queueLaw hu.1, haside h hu.2⟩) (fun h hu => ⟨h.queueLaw hu.1, hact h hu.1 hu.2⟩) hstep ⟨hq, hs⟩

/-- Settles O54: claims change a queue by inserts, removes and retargets of the station's own entry and by grants of the
head; outside GUARD the queues are empty. -/
theorem everyStepKeepsTheQueueLaw : Obligations.EveryStepKeepsTheQueueLaw :=
  ⟨fun _ _ hs hstep => (step_keeps_with_queues (P := fun _ => True) (fun _ _ h => h) (fun _ h => h) (fun _ _ h => h)
      hstep hs trivial).1,
    fun _ _ hq hs hstep => (step_keeps_with_queues (fun _ _ h => h) (fun h hs => h.still.orderLaw hs)
      (fun h hq hs => h.orderLaw hq hs) hstep hq hs).2⟩

/-- Settles O55: a slot is taken with the entry to STARTING and released with the way out of it. -/
theorem everyStepKeepsTheSlotLaw : Obligations.EveryStepKeepsTheSlotLaw :=
  fun _ _ hq hs hstep => (step_keeps_with_queues (P := fun u => u.slotLaw ∧ u.slotBound) (fun _ _ h => h)
    (fun h hs => ⟨h.still.slotLaw hs.1, h.still.slotBound hs.2⟩) (fun h hq hs => h.slotLaw hq hs) hstep hq hs).2

end Sys2Proof.Machine
end

section
/-! PROOF. What each part of a command does to a station's record beside its claims, the law of locks and trips, and
the image writer's side: the station entries of the work list, and what else the list holds (O57). -/

namespace Sys2Proof.Machine

open Sys2Proof

/-! ### Records outside the claims -/

/-- A station's record, with its timer perhaps one tenth on and its word perhaps granted. -/
structure Station.aged (d d' : Station) : Prop where
  frame : d' = { d with timer := d'.timer, writeBackPending := d'.writeBackPending, entered := d'.entered }
  timer : d'.timer = d.timer ∨ ∃ k, d.timer = some (k + 1) ∧ d'.timer = some k

theorem Station.aged_refl (d : Station) : d.aged d := ⟨rfl, .inl rfl⟩

theorem Station.aged_of_eq {d d' : Station} (h : d' = d) : d.aged d' := h ▸ d.aged_refl

theorem Station.aged_tick {d : Station} (h : d.timer.due = false) : d.aged d.tick := by
  refine ⟨rfl, ?_⟩
  show d.timer.tick = _ ∨ _
  cases ht : d.timer with
  | none => exact .inl rfl
  | some k =>
    cases k with
    | zero =>
      rw [ht] at h
      cases h
    | succ k => exact .inr ⟨k, rfl, by show d.timer.tick = _; rw [ht]; rfl⟩

theorem State.station_due_of_expiryDue {s : State} (h : s.expiryDue = false) (n : StationNo) :
    (s.station n).timer.due = false := by
  unfold State.expiryDue at h
  simp only [Bool.or_eq_false_iff] at h
  obtain ⟨⟨⟨⟨⟨hstations, -⟩, -⟩, -⟩, -⟩, -⟩ := h
  simpa using List.any_eq_false.mp hstations n (List.mem_finRange n)

theorem State.station_grantStation (s : State) (n m : StationNo) :
    (s.station m).aged ((s.grantStation n).station m)
      ∧ (m ≠ n → (s.grantStation n).station m = s.station m) := by
  have put : (s.grantStation n).station m
      = (s.stations.put n { s.station n with writeBackPending := false, entered := false }).nth m := rfl
  rw [put]
  by_cases h : m = n
  · subst h
    rw [Table.nth_put_self]
    exact ⟨⟨rfl, .inl rfl⟩, fun hne => absurd rfl hne⟩
  · rw [Table.nth_put_ne _ _ h]
    exact ⟨Station.aged_refl _, fun _ => rfl⟩

/-- An act that is no claim lets the stations' records age, or sets them outside GUARD as read in or as after the
reset. -/
theorem Act.records {s t : State} (h : Act s t) : (s.part = .guard ∧ Claims s t) ∨ ∀ n, (s.station n).aged (t.station n)
    ∨ (t.part ≠ .guard ∧ ((∃ w, t.station n = Station.readIn w) ∨ t.station n = Station.reset)) := by
  have same : ∀ {u : State}, u.stations = s.stations → ∀ n, (s.station n).aged (u.station n)
      ∨ (u.part ≠ .guard ∧ ((∃ w, u.station n = Station.readIn w) ∨ u.station n = Station.reset)) :=
    fun hu n => .inl (Station.aged_of_eq (by unfold State.station; rw [hu]))
  cases h with
  | claims hg h => exact .inl ⟨hg, h⟩
  | tick hg hdue =>
    refine .inr fun n => .inl ?_
    have ticked : s.tick.station n = (s.station n).tick := Table.nth_mapAll _ _ _
    rw [ticked]
    exact Station.aged_tick (State.station_due_of_expiryDue hdue n)
  | @memoryGrant t r _ _ ht =>
    rcases State.grantTo_stations ht with heq | ⟨m, rest, -, rfl⟩
    · exact .inr (same heq)
    · exact .inr fun n => .inl (s.station_grantStation m n).1
  | tail => exact .inr (same s.finish_stations)
  | recordHead => exact .inr (same s.finish_stations)
  | snapshotDone => exact .inr (same s.finish_stations)
  | recordDue => rw [s.recordDue_frame]; exact .inr (same rfl)
  | overflow => rw [s.overflowTurn_frame]; exact .inr (same rfl)
  | readIn m w hp =>
    refine .inr fun n => ?_
    have put : (s.readInStation m w).station n = (s.stations.put m (Station.readIn w)).nth n := rfl
    rw [put]
    by_cases hn : n = m
    · subst hn
      rw [Table.nth_put_self]
      exact .inr ⟨by show s.part ≠ _; rw [hp]; nofun, .inl ⟨w, rfl⟩⟩
    · rw [Table.nth_put_ne _ _ hn]
      exact .inl (Station.aged_refl _)
  | reset => exact .inr fun n => .inr ⟨nofun, .inr (Table.nth_replicate _ _)⟩
  | _ => exact .inr (same rfl)

/-! ### Locks and trips (O56) -/

theorem Station.outLaw_aged {d d' : Station} (h : d.aged d') (hd : d.outLaw) : d'.outLaw := by
  rw [h.frame]
  exact hd

theorem Station.outLaw_reset : Station.reset.outLaw := by
  unfold Station.outLaw
  decide

theorem Station.outLaw_readIn (w : Word) : (Station.readIn w).outLaw :=
  Station.outLaw_of_inService Station.outLaw_reset rfl
    (by rcases Station.readIn_state w with h | h <;> rw [h] <;> rfl) rfl rfl

theorem State.outLaw_iff (s : State) : s.outLaw ↔ ∀ n, (s.station n).outLaw := Iff.rfl

/-- The record after a change or a transition is the one given, but for the flags of its word. -/
theorem Station.outLaw_put {s : State} {n : StationNo} {d : Station} (h : d.outLaw) :
    ((s.putStation n d).station n).outLaw := by
  rw [State.station_putStation_self]
  split <;> exact h

theorem Station.outLaw_moved {s : State} {n : StationNo} {d : Station} {l : List ReportRecord} (h : d.outLaw) :
    ((s.moveStation n d l).station n).outLaw := by
  rw [State.station_moveStation_self]
  split <;> exact h

theorem Touch.outLaw {s t : State} (h : Touch s t) (hq : s.queuesMatch) (hs : s.outLaw) : t.outLaw := by
  cases h with
  | put n d _ _ hout =>
    intro m
    by_cases hm : m = n
    · subst hm
      exact Station.outLaw_put (hout (hs m))
    · rw [State.station_putStation_ne s d hm]
      exact hs m
  | move n d l _ _ hout =>
    intro m
    by_cases hm : m = n
    · subst hm
      exact Station.outLaw_moved (hout (hs m))
    · rw [State.station_moveStation_ne s d l hm]
      exact hs m
  | retarget n => exact hs
  | grant f =>
    rcases s.grant_cases f with heq | ⟨e, rest, hqueue, -, heq⟩ <;> rw [heq]
    · exact hs
    · obtain ⟨hstate, -, -⟩ := hq.head hqueue
      intro m
      by_cases hm : m = e.station
      · subst hm
        refine Station.outLaw_put ?_
        exact Station.outLaw_of_inService (hs e.station) (LifeState.out_of_eq hstate rfl) rfl rfl rfl
      · rw [s.station_grantEntry_ne f rest hm]
        exact hs m
  | hand l => exact hs
  | other => exact hs

theorem Act.outLaw {s t : State} (h : Act s t) (hq : s.queueLaw) (hs : s.outLaw) : t.outLaw := by
  rcases h.records with ⟨-, claims⟩ | records
  · exact (claims.keeps_with_queues (fun h hq => h.outLaw hq) ⟨hq.1, hq.2.1⟩ hs).2
  · intro n
    rcases records n with aged | ⟨-, ⟨w, heq⟩ | heq⟩
    · exact Station.outLaw_aged aged (hs n)
    · rw [heq]; exact Station.outLaw_readIn w
    · rw [heq]; exact Station.outLaw_reset

theorem Aside.stations {s t : State} (h : Aside s t) : t.stations = s.stations := by
  cases h with
  | quiet h => rw [h.frame]
  | _ => rfl

theorem Aside.station {s t : State} (h : Aside s t) (n : StationNo) : t.station n = s.station n := by
  unfold State.station
  rw [h.stations]

/-- A station in LOCKED or TRIPPED stays so exactly as long as its causes say (first clause of O56). -/
theorem step_outLaw {s t : State} (hq : s.queueLaw) (hs : s.outLaw) (hstep : step s = .next t) : t.outLaw :=
  (step_keeps_with_queues (P := State.outLaw) (fun _ _ h => h)
    (fun h hs n => by rw [h.station]; exact hs n) (fun h hq hs => h.outLaw hq hs) hstep hq hs).2

/-! ### Write-back (R18) -/

/-- What one change of a station's record shows stays as it was or has its write-back pending, and a write-back pending
stays pending. -/
structure Station.told (d d' : Station) : Prop where
  pending : d.writeBackPending = true → d'.writeBackPending = true
  shown : d'.shown = d.shown ∨ d'.writeBackPending = true

theorem Station.told_refl (d : Station) : d.told d := ⟨id, .inl rfl⟩

theorem Station.told_trans {a b c : Station} (h : a.told b) (h' : b.told c) : a.told c := by
  refine ⟨h'.pending ∘ h.pending, ?_⟩
  rcases h'.shown with heq | hpend
  · rcases h.shown with heq' | hpend'
    · exact .inl (heq.trans heq')
    · exact .inr (h'.pending hpend')
  · exact .inr hpend

/-- A record given its write-back by whether it shows a change. -/
theorem State.told_putStation {s : State} {n : StationNo} {d : Station}
    (hpend : d.writeBackPending = (s.station n).writeBackPending) :
    (s.station n).told ((s.putStation n d).station n) := by
  rw [State.station_putStation_self]
  split
  · next heq => exact ⟨fun h => hpend.trans h, .inl heq.symm⟩
  · exact ⟨fun _ => rfl, .inr rfl⟩

theorem Touch.told {s t : State} (h : Touch s t) (m : StationNo) : (s.station m).told (t.station m) := by
  cases h with
  | put n d _ hpend _ =>
    by_cases hm : m = n
    · subst hm
      exact State.told_putStation hpend
    · rw [State.station_putStation_ne s d hm]
      exact Station.told_refl _
  | move n d l _ hpend _ =>
    by_cases hm : m = n
    · subst hm
      exact State.told_putStation (d := { d with entered := true }) hpend
    · rw [State.station_moveStation_ne s d l hm]
      exact Station.told_refl _
  | retarget n => exact Station.told_refl _
  | grant f =>
    rcases s.grant_cases f with heq | ⟨e, rest, -, -, heq⟩ <;> rw [heq]
    · exact Station.told_refl _
    · by_cases hm : m = e.station
      · subst hm
        exact State.told_putStation (s := s.putFeeder f _) rfl
      · rw [s.station_grantEntry_ne f rest hm]
        exact Station.told_refl _
  | hand l => exact Station.told_refl _
  | other => exact Station.told_refl _

theorem Act.told {s t : State} (h : Act s t) (hg : t.part = .guard) (n : StationNo) :
    (t.station n).shown = (s.station n).shown ∨ (t.station n).writeBackPending = true := by
  rcases h.records with ⟨-, claims⟩ | records
  · exact (claims.touches.keeps (P := fun u => (s.station n).told (u.station n))
      (fun hst hu => Station.told_trans hu (hst.told n)) (Station.told_refl _)).shown
  · rcases records n with aged | ⟨hne, -⟩
    · rw [aged.frame]
      exact .inl rfl
    · exact absurd hg hne

theorem Asides.keeps {P : State → Prop} (h : ∀ {s t}, Aside s t → P s → P t) {s t : State} (hst : Asides s t) (hs : P s) :
    P t := by
  induction hst with
  | refl => exact hs
  | tail _ step ih => exact h step ih

theorem Asides.station {s t : State} (h : Asides s t) (n : StationNo) : t.station n = s.station n :=
  h.keeps (P := fun u => u.station n = s.station n) (fun hst hs => (hst.station n).trans hs) rfl

theorem Aside.part {s t : State} (h : Aside s t) : t.part = s.part := h.still.part

theorem Asides.part {s t : State} (h : Asides s t) : t.part = s.part :=
  h.keeps (P := fun u => u.part = s.part) (fun hst hs => hst.part.trans hs) rfl

/-- What a step does to the stations, one act does. -/
theorem step_act {s t : State} (hstep : step s = .next t) : ∃ u v, Act u v ∧ u.part = s.part ∧ t.part = v.part
    ∧ ∀ n, u.station n = s.station n ∧ t.station n = v.station n := by
  obtain ⟨q, u, v, hu, act, hv⟩ := step_effect hstep
  refine ⟨u, v, act, ?_, ?_, fun n => ⟨?_, ?_⟩⟩
  · exact hu.part
  · exact hv.part
  · exact hu.station n
  · exact hv.station n

/-- A change of what a station's word shows leaves its write-back pending (third clause of O57). -/
theorem step_told {s t : State} (hstep : step s = .next t) (hg : t.part = .guard) (n : StationNo) :
    (t.station n).shown = (s.station n).shown ∨ (t.station n).writeBackPending = true := by
  obtain ⟨u, v, act, -, hpart, records⟩ := step_act hstep
  obtain ⟨hu, hv⟩ := records n
  rw [hv, ← hu]
  exact act.told (hpart.symm.trans hg) n

/-! ### What joins the work list -/

/-- One record handed, or a station's entry placed. -/
inductive ImageWriter.Joins : ImageWriter → ImageWriter → Prop
  | record (w : ImageWriter) (r : ReportRecord) : Joins w (w.hand r)
  | station (w : ImageWriter) (n : StationNo) : Joins w (w.placeOnce (.station n))

theorem ImageWriter.joins_handAll (w : ImageWriter) (l : List ReportRecord) :
    Relation.ReflTransGen ImageWriter.Joins w (w.handAll l) := by
  unfold ImageWriter.handAll
  induction l generalizing w with
  | nil => exact .refl
  | cons r rest ih => exact .head (.record w r) (ih (w.hand r))

theorem State.joins_putStation (s : State) (n : StationNo) (d : Station) :
    Relation.ReflTransGen ImageWriter.Joins s.writer (s.putStation n d).writer := by
  unfold State.putStation
  dsimp only
  split
  · exact .refl
  · exact .single (.station _ n)

theorem Touch.joins {s t : State} (h : Touch s t) : Relation.ReflTransGen ImageWriter.Joins s.writer t.writer := by
  cases h with
  | put n d => exact s.joins_putStation n d
  | move n d l => exact (s.joins_putStation n { d with entered := true }).trans (ImageWriter.joins_handAll _ l)
  | retarget n => exact .refl
  | grant f =>
    rcases s.grant_cases f with heq | ⟨e, rest, -, -, heq⟩ <;> rw [heq]
    exact State.joins_putStation _ _ _
  | hand l => exact ImageWriter.joins_handAll _ l
  | other => exact .refl

theorem ImageWriter.Joins.keeps {P : ImageWriter → Prop} (hrecord : ∀ w r, P w → P (w.hand r))
    (hstation : ∀ w n, P w → P (w.placeOnce (.station n))) {w w' : ImageWriter}
    (h : Relation.ReflTransGen ImageWriter.Joins w w') (hw : P w) : P w' := by
  induction h with
  | refl => exact hw
  | tail _ step ih =>
    cases step with
    | record r => exact hrecord _ r ih
    | station n => exact hstation _ n ih

/-! ### Station entries -/

/-- An entry placed once stands in the list once more than before, unless it waits there. -/
theorem ImageWriter.count_placeOnce (w : ImageWriter) (e x : WorkEntry) : (w.placeOnce e).workList.count x
    = if x = e ∧ e ∉ w.workList then w.workList.count x + 1 else w.workList.count x := by
  unfold ImageWriter.placeOnce
  dsimp only
  by_cases hin : e ∈ w.workList
  · simp [hin]
  · by_cases hx : x = e
    · subst hx
      simp [hin]
    · simp [hin, hx, List.count_append, Ne.symm hx]

/-- A record handed places its own entry or the dropped count's, and no other. -/
theorem ImageWriter.count_hand (w : ImageWriter) (r : ReportRecord) {x : WorkEntry} (hr : x ≠ .record false)
    (hd : x ≠ .droppedCount) : (w.hand r).workList.count x = w.workList.count x := by
  unfold ImageWriter.hand
  split
  · simp [List.count_append, hr.symm]
  · unfold ImageWriter.countDrop
    rw [ImageWriter.count_placeOnce, if_neg fun h => hd h.1]

theorem ImageWriter.count_handAll (w : ImageWriter) (l : List ReportRecord) {x : WorkEntry} (hr : x ≠ .record false)
    (hd : x ≠ .droppedCount) : (w.handAll l).workList.count x = w.workList.count x := by
  unfold ImageWriter.handAll
  induction l generalizing w with
  | nil => rfl
  | cons r rest ih => exact (ih (w.hand r)).trans (w.count_hand r hr hd)

theorem State.tells_putStation {s : State} (h : s.writeBackLaw) {n : StationNo} {d : Station}
    (hpend : d.writeBackPending = (s.station n).writeBackPending) : (s.putStation n d).writeBackLaw := by
  intro m
  have before := h m
  by_cases hm : m = n
  · subst hm
    rw [State.station_putStation_self]
    unfold State.putStation
    dsimp only
    split
    · rw [hpend]
      exact before
    · rw [ImageWriter.count_placeOnce]
      by_cases hin : WorkEntry.station m ∈ s.writer.workList
      · rw [if_neg fun h => h.2 hin]
        have : 0 < s.writer.workList.count (.station m) := List.count_pos_iff.mpr hin
        simp only
        split at before <;> simp_all
      · rw [if_pos ⟨rfl, hin⟩, List.count_eq_zero.mpr hin]
        rfl
  · rw [State.station_putStation_ne s d hm, ← before]
    unfold State.putStation
    dsimp only
    split
    · rfl
    · rw [ImageWriter.count_placeOnce, if_neg fun h => hm (WorkEntry.station.inj h.1)]

theorem State.writeBackLaw.handAll {s : State} (h : s.writeBackLaw) (l : List ReportRecord) : (s.hand l).writeBackLaw :=
  fun n => (s.writer.count_handAll l (x := .station n) nofun nofun).trans (h n)

/-- The law of station entries reads the stations and the work list. -/
theorem State.writeBackLaw_of {s t : State} (h : s.writeBackLaw)
    (hst : ∀ n, (t.station n).writeBackPending = (s.station n).writeBackPending)
    (hw : ∀ n, t.writer.workList.count (.station n) = s.writer.workList.count (.station n)) : t.writeBackLaw := by
  intro n
  rw [hw, hst]
  exact h n

theorem Touch.writeBackLaw {s t : State} (h : Touch s t) (hs : s.writeBackLaw) : t.writeBackLaw := by
  cases h with
  | put n d _ hpend _ => exact State.tells_putStation hs hpend
  | move n d l _ hpend _ =>
    exact State.writeBackLaw.handAll (s := s.putStation n { d with entered := true })
      (State.tells_putStation hs hpend) l
  | retarget n => exact hs
  | grant f =>
    rcases s.grant_cases f with heq | ⟨e, rest, -, -, heq⟩ <;> rw [heq]
    · exact hs
    · exact State.tells_putStation (s := s.putFeeder f _) hs rfl
  | hand l => exact State.writeBackLaw.handAll hs l
  | other => exact hs

end Sys2Proof.Machine
end

section
/-! PROOF. What a grant of the memory port is, case by case, and the two laws of the work list (O57). -/

namespace Sys2Proof.Machine

open Sys2Proof

/-! ### The grants of the memory port (R159, R182, R187, R190, R195) -/

/-- An entry whose one word is written with one access. -/
def WorkEntry.oneWord : WorkEntry → Bool
  | .reply _ => true
  | .droppedCount => true
  | .setupResult _ => true
  | .entering _ _ _ => true
  | .station _ => false
  | .record _ => false
  | .overflow _ => false
  | .snapshot => false

/-- What the winner's grant makes of the state, but for the lost counts. -/
inductive Granted (s : State) : State → Prop
  | write (p : Port) (w : PortWrite) (rest : List PortWrite) (k : PassKind) (hb : (s.port p).buffer = w :: rest)
      (hd : (s.port p).disposed = some k) :
      Granted s { s.withPort p { s.port p with buffer := rest, disposed := none } with
        inFlight := some { requester := requesterOf p, transfer := .write (writeAt w) w.data w.enables, owner := .port k } }
  | read (p : Port) (a : Nat) :
      Granted s { s with inFlight := some { requester := requesterOf p, transfer := .read a, owner := .portRead p } }
  | idle : Granted s s
  | readIn (n : StationNo) (a : Nat) (rest : List StationNo) :
      Granted s { s with
        reading := rest, inFlight := some { requester := .image, transfer := .read a, owner := .readIn n } }
  | station (n : StationNo) (rest : List WorkEntry) (hl : s.writer.workList = .station n :: rest) :
      Granted s (s.grantStation n)
  | word (e : WorkEntry) (rest : List WorkEntry) (a : Nat) (d : Word) (last : Bool) (hl : s.writer.workList = e :: rest)
      (he : e.oneWord = true) : Granted s (s.imageLeave.imageWrite a d (if last then .enteringEnd else .none))
  | lane (a : Nat) (d : Word) : Granted s (s.imageAdvance.imageWrite a d .none)
  | head (e : WorkEntry) (rest : List WorkEntry) (l : List ReportRecord) (cls : RecordClass) (a : Nat) (d : Word)
      (hl : s.writer.workList = e :: rest) (he : e.passed = true)
      (hbuf : (e.isRecord = true ∧ ∃ r, s.writer.buffer = r :: l) ∨ (e.isOverflow = true ∧ l = s.writer.buffer)) :
      Granted s ({ s with writer := { s.writer.leave with
        head := nextSlot (Setup.capacity s.copy) s.writer.head, buffer := l } }.imageWrite a d (.recordHead cls))
  | snapshotEnd (rest : List WorkEntry) (a : Nat) (d : Word) (hl : s.writer.workList = .snapshot :: rest)
      (hx : s.writer.snapshot ≠ none) : Granted s (s.imageLeave.imageWrite a d .snapshotEnd)

theorem Granted.record {s : State} (r : ReportRecord) {e : WorkEntry} {rest : List WorkEntry} {l : List ReportRecord}
    (hl : s.writer.workList = e :: rest) (he : e.passed = true)
    (hbuf : (e.isRecord = true ∧ ∃ r, s.writer.buffer = r :: l) ∨ (e.isOverflow = true ∧ l = s.writer.buffer)) :
    Granted s (s.grantRecord r l) := by
  unfold State.grantRecord
  dsimp only
  split
  · exact .lane _ _
  · exact .head e rest l _ _ _ hl he hbuf

theorem State.granted_port (s : State) (p : Port) : Granted s (s.grantPort p) := by
  unfold State.grantPort
  dsimp only
  split
  · next w rest k hb hd => exact .write p w rest k hb hd
  · exact .read p _
  · exact .idle
  · exact .idle

theorem State.granted_entry {s t : State} (h : s.grantEntryAccess = some t) : Granted s t := by
  unfold State.grantEntryAccess at h
  split at h
  case h_1 => cases h
  case h_2 n rest hl => cases h; exact .station n rest hl
  case h_3 w rest hl => cases h; exact .word _ rest _ _ false hl rfl
  case h_4 rest hl =>
    split at h
    · cases h
    · next r l hbuf => cases h; exact .record r hl rfl (.inl ⟨rfl, r, hbuf⟩)
  case h_5 => cases h
  case h_6 rest hl => cases h; exact .word _ rest _ _ false hl rfl
  case h_7 r rest hl => cases h; exact .record r hl rfl (.inr ⟨rfl, rfl⟩)
  case h_8 => cases h
  case h_9 rest hl =>
    obtain ⟨x, hx, rfl⟩ := Option.map_eq_some_iff.mp h
    unfold State.grantSnapshot
    dsimp only
    split
    · exact .lane _ _
    · exact .snapshotEnd rest _ _ hl (by rw [hx]; nofun)
  case h_10 w rest hl => cases h; exact .word _ rest _ _ false hl rfl
  case h_11 a w last rest hl => cases h; exact .word _ rest _ _ last hl rfl

theorem State.granted {s t : State} {r : Requester} (h : s.grantTo r = some t) : Granted s t := by
  cases r with
  | scanner => cases h; exact s.granted_port .scanner
  | control => cases h; exact s.granted_port .control
  | image =>
    dsimp only [State.grantTo] at h
    unfold State.grantImage at h
    split at h
    · cases h; exact .readIn _ _ _
    · exact State.granted_entry h

/-! ### The law of station entries, through the other parts -/

theorem ImageWriter.workList_leave {w : ImageWriter} {e : WorkEntry} {rest : List WorkEntry} (h : w.workList = e :: rest) :
    w.leave.workList = rest := by
  unfold ImageWriter.leave
  rw [h]
  rfl

theorem Granted.writeBackLaw {s t : State} (h : Granted s t) (hs : s.writeBackLaw) : t.writeBackLaw := by
  have leave : ∀ {e : WorkEntry} {rest : List WorkEntry}, s.writer.workList = e :: rest → (∀ n, e ≠ .station n) →
      ∀ n, s.writer.leave.workList.count (.station n) = s.writer.workList.count (.station n) := by
    intro e rest hl he n
    rw [ImageWriter.workList_leave hl, hl, List.count_cons_of_ne (he n)]
  cases h with
  | station n rest hl =>
    intro m
    have before := hs m
    have after : (s.grantStation n).writer.workList = rest := ImageWriter.workList_leave hl
    have put : (s.grantStation n).station m
        = (s.stations.put n { s.station n with writeBackPending := false, entered := false }).nth m := rfl
    rw [after, put]
    rw [hl] at before
    by_cases hm : m = n
    · subst hm
      rw [Table.nth_put_self]
      rw [List.count_cons_self] at before
      dsimp only
      split at before
      · exact Nat.succ.inj before
      · cases before
    · rw [Table.nth_put_ne _ _ hm]
      rw [List.count_cons_of_ne fun h => hm (WorkEntry.station.inj h).symm] at before
      exact before
  | word e rest a d last hl he =>
    refine State.writeBackLaw_of hs (fun _ => rfl) (leave hl fun n hn => ?_)
    subst hn
    cases he
  | head e rest l cls a d hl he =>
    refine State.writeBackLaw_of hs (fun _ => rfl) (leave hl fun n hn => ?_)
    subst hn
    cases he
  | snapshotEnd rest a d hl => exact State.writeBackLaw_of hs (fun _ => rfl) (leave hl nofun)
  | _ => exact State.writeBackLaw_of hs (fun _ => rfl) fun _ => rfl

theorem WorkEntry.undue_eq_station {e : WorkEntry} {n : StationNo} : e.undue = .station n ↔ e = .station n := by
  cases e <;> simp [WorkEntry.undue]

/-- An OVERFLOW entry placed and the head checked again leave every other entry. -/
theorem count_placeOverflow (b : Bool) (l : List WorkEntry) {x : WorkEntry} (hrec : x.isRecord = false)
    (hover : x.isOverflow = false) : (placeOverflow b l).count x = l.count x := by
  have other : ∀ r, WorkEntry.overflow r ≠ x := by rintro r rfl; cases hover
  have undue : ∀ e : WorkEntry, e.undue = x ↔ e = x := by
    intro e
    cases e with
    | record due =>
      refine ⟨fun h => ?_, fun h => ?_⟩ <;> rw [← h] at hrec <;> cases hrec
    | _ => rfl
  unfold placeOverflow
  split
  · rfl
  · split
    · rw [List.count_cons_of_ne (other _)]
    · split
      · simp [List.count_cons, other]
      · simp [List.count_cons, other, undue]

theorem Aside.writeBackLaw {s t : State} (h : Aside s t) (hs : s.writeBackLaw) : t.writeBackLaw := by
  refine State.writeBackLaw_of hs (fun n => by rw [h.station]) fun n => ?_
  cases h with
  | quiet h => rw [h.frame]
  | hand r => exact s.writer.count_hand r nofun nofun
  | reply w =>
    show (s.writer.workList ++ [_]).count _ = _
    simp
  | _ => rfl

/-- An entry of another kind at the head of the list. -/
theorem count_cons_of_other {e x : WorkEntry} (rest : List WorkEntry) (h : e ≠ x) : (e :: rest).count x = rest.count x :=
  List.count_cons_of_ne h

/-- The check of a record entry leaves the entries of every other kind. -/
theorem State.count_recordDue (s : State) {x : WorkEntry} (hrec : x.isRecord = false) (hd : x ≠ .droppedCount) :
    s.recordDue.writer.workList.count x = s.writer.workList.count x := by
  have other : ∀ b, WorkEntry.record b ≠ x := by rintro b rfl; cases hrec
  unfold State.recordDue
  split
  · next rest hl =>
    split
    · show (ImageWriter.countDrop _).workList.count _ = _
      unfold ImageWriter.countDrop
      rw [ImageWriter.count_placeOnce, if_neg fun h => hd h.1]
      show s.writer.leave.workList.count _ = _
      rw [ImageWriter.workList_leave hl, hl, count_cons_of_other rest (other _)]
    · rw [hl]
      exact (count_cons_of_other rest (other _)).trans (count_cons_of_other rest (other _)).symm
  · rfl

theorem State.count_overflowTurn (s : State) {x : WorkEntry} (hover : x.isOverflow = false) (hd : x ≠ .droppedCount) :
    s.overflowTurn.writer.workList.count x = s.writer.workList.count x := by
  have other : ∀ r, WorkEntry.overflow r ≠ x := by rintro r rfl; cases hover
  unfold State.overflowTurn
  split
  · next rest hl =>
    split
    · show s.writer.leave.workList.count _ = _
      rw [ImageWriter.workList_leave hl, hl, count_cons_of_other rest (other _)]
    · dsimp only
      rw [ImageWriter.count_placeOnce, if_neg fun h => hd h.1, hl]
      exact (count_cons_of_other rest (other _)).trans (count_cons_of_other rest (other _)).symm
  · rfl

/-- The check of a record entry changes the work list, its progress, the record buffer and the dropped count. -/
theorem State.recordDue_writer (s : State) : s.recordDue.writer = { s.writer with
    workList := s.recordDue.writer.workList, progress := s.recordDue.writer.progress
    buffer := s.recordDue.writer.buffer, dropped := s.recordDue.writer.dropped } := by
  unfold State.recordDue
  split
  · split <;> rfl
  · rfl

theorem State.overflowTurn_writer (s : State) : s.overflowTurn.writer = { s.writer with
    workList := s.overflowTurn.writer.workList, progress := s.overflowTurn.writer.progress
    dropped := s.overflowTurn.writer.dropped } := by
  unfold State.overflowTurn
  split
  · split <;> rfl
  · rfl

theorem State.count_tailMoved (s : State) (k : Nat) {x : WorkEntry} (hrec : x.isRecord = false)
    (hover : x.isOverflow = false) : (s.tailMoved k).writer.workList.count x = s.writer.workList.count x := by
  unfold State.tailMoved
  dsimp only
  split
  · exact count_placeOverflow _ _ hrec hover
  · rfl

theorem State.writeBackLaw_readIn {s : State} (hs : s.writeBackLaw) (n : StationNo) (w : Word) :
    (s.readInStation n w).writeBackLaw := by
  intro m
  have before := hs m
  have put : (s.readInStation n w).station m = (s.stations.put n (Station.readIn w)).nth m := rfl
  have placed : (s.readInStation n w).writer = s.writer.placeOnce (.station n) := rfl
  rw [put, placed, ImageWriter.count_placeOnce]
  by_cases hm : m = n
  · subst hm
    rw [Table.nth_put_self]
    show _ = 1
    by_cases hin : WorkEntry.station m ∈ s.writer.workList
    · rw [if_neg fun h => h.2 hin]
      have : 0 < s.writer.workList.count (.station m) := List.count_pos_iff.mpr hin
      split at before <;> omega
    · rw [if_pos ⟨rfl, hin⟩, List.count_eq_zero.mpr hin]
  · rw [Table.nth_put_ne _ _ hm, if_neg fun h => hm (WorkEntry.station.inj h.1)]
    exact before

theorem Act.writeBackLaw {s t : State} (h : Act s t) (hs : s.writeBackLaw) : t.writeBackLaw := by
  have finished : ∀ {u : State}, u.stations = s.stations →
      (∀ n, u.writer.workList.count (.station n) = s.writer.workList.count (.station n)) → u.writeBackLaw :=
    fun hu hw => State.writeBackLaw_of hs (fun n => by unfold State.station; rw [hu]) hw
  have appended : ∀ (l : List WorkEntry) (n : StationNo), l.count (.station n) = 0 →
      (s.writer.workList ++ l).count (.station n) = s.writer.workList.count (.station n) :=
    fun l n hl => by rw [List.count_append, hl, Nat.add_zero]
  cases h with
  | claims _ h => exact h.touches.keeps (fun hst hu => hst.writeBackLaw hu) hs
  | tick =>
    refine State.writeBackLaw_of hs (fun n => ?_) fun _ => rfl
    show ((s.stations.mapAll Station.tick).nth n).writeBackPending = _
    rw [Table.nth_mapAll]
    rfl
  | pass p w rest k =>
    refine finished rfl fun n => ?_
    show (s.writer.checkTail k w.data.toNat).workList.count _ = _
    unfold ImageWriter.checkTail
    split <;> rfl
  | memoryGrant _ _ ht => exact (State.granted ht).writeBackLaw hs
  | tail =>
    refine finished s.finish_stations fun n => ?_
    rw [State.count_tailMoved _ _ rfl rfl, s.finish_writer]
  | recordHead cls =>
    exact finished s.finish_stations fun n => by
      show s.finish.writer.workList.count _ = _
      rw [s.finish_writer]
  | snapshotDone =>
    exact finished s.finish_stations fun n => by
      show s.finish.writer.workList.count _ = _
      rw [s.finish_writer]
  | recordDue => exact finished (by rw [s.recordDue_frame]) fun n => s.count_recordDue rfl nofun
  | overflow => exact finished (by rw [s.overflowTurn_frame]) fun n => s.count_overflowTurn rfl nofun
  | snapshotTaken x reply =>
    refine finished rfl fun n => ?_
    show (s.writer.workList ++ [WorkEntry.reply reply] ++ [WorkEntry.snapshot]).count _ = _
    rw [List.append_assoc]
    exact appended _ n rfl
  | closeFails code k => exact finished rfl fun n => appended _ n rfl
  | closeSucceeds d => exact finished rfl fun n => appended _ n rfl
  | readIn n w => exact State.writeBackLaw_readIn hs n w
  | reset =>
    intro n
    rw [show s.resetPart.station n = Station.reset from Table.nth_replicate _ _]
    rfl
  | _ => exact finished rfl fun _ => rfl

/-! ### The other entries (R187, R194, R195) -/

/-- The entries that the writer's own fields bound. -/
structure ImageWriter.listed (w : ImageWriter) : Prop where
  dropped : w.workList.count .droppedCount ≤ 1
  overflow : (w.workList.filter WorkEntry.isOverflow).length ≤ 1
  snapshot : w.workList.count .snapshot ≤ 1
  record : (w.workList.filter WorkEntry.isRecord).length = w.buffer.length

/-- A dropped record counted places at most the dropped count's entry. -/
theorem ImageWriter.listed_placeDropped {w : ImageWriter} (h : w.listed) : (w.placeOnce .droppedCount).listed := by
  obtain ⟨hd, ho, hx, hr⟩ := h
  unfold ImageWriter.placeOnce
  by_cases hin : WorkEntry.droppedCount ∈ w.workList
  · simp only [List.contains_eq_mem, hin, decide_true, if_true]
    exact ⟨hd, ho, hx, hr⟩
  · simp only [List.contains_eq_mem, hin, decide_false, Bool.false_eq_true, if_false]
    refine ⟨?_, ?_, ?_, ?_⟩
    · simp [List.count_append, List.count_eq_zero.mpr hin]
    · simpa [WorkEntry.isOverflow] using ho
    · simpa [List.count_append] using hx
    · simpa [WorkEntry.isRecord] using hr

theorem ImageWriter.listed_placeStation {w : ImageWriter} (h : w.listed) (n : StationNo) :
    (w.placeOnce (.station n)).listed := by
  obtain ⟨hd, ho, hx, hr⟩ := h
  unfold ImageWriter.placeOnce
  split
  · exact ⟨hd, ho, hx, hr⟩
  · refine ⟨?_, ?_, ?_, ?_⟩
    · simpa [List.count_append] using hd
    · simpa [WorkEntry.isOverflow] using ho
    · simpa [List.count_append] using hx
    · simpa [WorkEntry.isRecord] using hr

theorem ImageWriter.listed_hand {w : ImageWriter} (h : w.listed) (r : ReportRecord) : (w.hand r).listed := by
  unfold ImageWriter.hand
  split
  · obtain ⟨hd, ho, hx, hr⟩ := h
    refine ⟨?_, ?_, ?_, ?_⟩
    · simpa [List.count_append] using hd
    · simpa [WorkEntry.isOverflow] using ho
    · simpa [List.count_append] using hx
    · rw [List.filter_append, List.length_append, List.length_append, hr]
      rfl
  · exact ImageWriter.listed_placeDropped (w := { w with dropped := min 65535 (w.dropped + 1) }) ⟨h.1, h.2, h.3, h.4⟩

theorem ImageWriter.listed_joins {w w' : ImageWriter} (h : Relation.ReflTransGen ImageWriter.Joins w w') (hw : w.listed) :
    w'.listed :=
  ImageWriter.Joins.keeps (P := ImageWriter.listed) (fun _ r h => ImageWriter.listed_hand h r)
    (fun _ n h => ImageWriter.listed_placeStation h n) h hw

/-- Neither a record nor a station's entry is the snapshot's. -/
theorem ImageWriter.snapshot_joins {w w' : ImageWriter} (h : Relation.ReflTransGen ImageWriter.Joins w w') :
    .snapshot ∈ w'.workList ↔ .snapshot ∈ w.workList := by
  have count : w'.workList.count .snapshot = w.workList.count .snapshot :=
    ImageWriter.Joins.keeps (P := fun u => u.workList.count .snapshot = w.workList.count .snapshot)
      (fun u r hu => (u.count_hand r (x := .snapshot) nofun nofun).trans hu)
      (fun u n hu => by rw [ImageWriter.count_placeOnce, if_neg fun h => nomatch h.1]; exact hu) h rfl
  rw [← List.count_pos_iff, ← List.count_pos_iff, count]

/-- The snapshot's entry and the completion of its last write, with a snapshot in progress. -/
structure State.snapshotLaw (s : State) : Prop where
  entry : .snapshot ∈ s.writer.workList → s.writer.snapshot ≠ none ∧ s.flightOwner ≠ some .snapshotEnd
  flight : s.flightOwner = some .snapshotEnd → s.writer.snapshot ≠ none

/-- Outside GUARD the work list holds no entry of GUARD. -/
def State.listApart (s : State) : Prop := s.part ≠ .guard → ∀ e ∈ s.writer.workList, e.ofGuard = false

theorem State.workListLaw_iff (s : State) : s.workListLaw ↔ s.writer.listed ∧ s.snapshotLaw ∧ s.listApart := by
  constructor
  · rintro ⟨hd, ho, hx, hentry, hflight, hr, happart⟩
    exact ⟨⟨hd, ho, hx, hr⟩, ⟨hentry, hflight⟩, happart⟩
  · rintro ⟨⟨hd, ho, hx, hr⟩, ⟨hentry, hflight⟩, happart⟩
    exact ⟨hd, ho, hx, hentry, hflight, hr, happart⟩

theorem ImageWriter.listed.leave {w : ImageWriter} (h : w.listed) {e : WorkEntry} {rest : List WorkEntry}
    (hl : w.workList = e :: rest) {l : List ReportRecord}
    (hbuf : (e.isRecord = true ∧ w.buffer.length = l.length + 1) ∨ (e.isRecord = false ∧ l.length = w.buffer.length))
    {w' : ImageWriter} (hw : w'.workList = rest) (hb : w'.buffer = l) : w'.listed := by
  obtain ⟨hd, ho, hx, hr⟩ := h
  rw [hl] at hd ho hx hr
  rw [List.filter_cons] at ho hr
  refine ⟨?_, ?_, ?_, ?_⟩ <;> rw [hw]
  · exact (List.count_le_count_cons).trans hd
  · split at ho
    · exact (Nat.le_succ _).trans ho
    · exact ho
  · exact (List.count_le_count_cons).trans hx
  · rw [hb]
    rcases hbuf with ⟨hrec, hlen⟩ | ⟨hrec, hlen⟩
    · rw [if_pos hrec, List.length_cons] at hr
      omega
    · rw [hrec, if_neg (by decide)] at hr
      omega

theorem ImageWriter.listed_of_eq {w w' : ImageWriter} (h : w.listed) (hw : w'.workList = w.workList)
    (hb : w'.buffer = w.buffer) : w'.listed := by
  obtain ⟨hd, ho, hx, hr⟩ := h
  exact ⟨by rw [hw]; exact hd, by rw [hw]; exact ho, by rw [hw]; exact hx, by rw [hw, hb]; exact hr⟩

/-- The entries that the law of the work list counts. -/
def WorkEntry.counted : WorkEntry → Bool
  | .record _ => true
  | .droppedCount => true
  | .overflow _ => true
  | .snapshot => true
  | .station _ => false
  | .reply _ => false
  | .setupResult _ => false
  | .entering _ _ _ => false

theorem WorkEntry.uncounted_of {e : WorkEntry} (h : e.counted = false) :
    e ≠ .droppedCount ∧ e.isOverflow = false ∧ e ≠ .snapshot ∧ e.isRecord = false := by
  cases e with
  | station | reply | setupResult | entering => exact ⟨nofun, rfl, nofun, rfl⟩
  | record | droppedCount | overflow | snapshot => cases h

/-- A list without entries that the law counts. -/
theorem uncounted_list {l : List WorkEntry} (h : ∀ e ∈ l, e.counted = false) :
    l.count .droppedCount = 0 ∧ l.filter WorkEntry.isOverflow = [] ∧ l.count .snapshot = 0
      ∧ l.filter WorkEntry.isRecord = [] := by
  refine ⟨List.count_eq_zero.mpr fun hin => (nomatch h _ hin), List.filter_eq_nil_iff.mpr fun e he => ?_,
    List.count_eq_zero.mpr fun hin => (nomatch h _ hin), List.filter_eq_nil_iff.mpr fun e he => ?_⟩
  · obtain ⟨-, hover, -, -⟩ := WorkEntry.uncounted_of (h e he)
    rw [hover]; decide
  · obtain ⟨-, -, -, hrec⟩ := WorkEntry.uncounted_of (h e he)
    rw [hrec]; decide

theorem ImageWriter.listed_append {w w' : ImageWriter} (h : w.listed) {l : List WorkEntry}
    (hl : ∀ e ∈ l, e.counted = false) (hw : w'.workList = w.workList ++ l) (hb : w'.buffer = w.buffer) : w'.listed := by
  obtain ⟨hd, ho, hx, hr⟩ := h
  obtain ⟨hd', ho', hx', hr'⟩ := uncounted_list hl
  refine ⟨?_, ?_, ?_, ?_⟩ <;> rw [hw]
  · rw [List.count_append, hd']; exact hd
  · rw [List.filter_append, ho', List.append_nil]; exact ho
  · rw [List.count_append, hx']; exact hx
  · rw [List.filter_append, hr', List.append_nil, hb]; exact hr

theorem Granted.listed {s t : State} (h : Granted s t) (hs : s.writer.listed) : t.writer.listed := by
  cases h with
  | station n rest hl => exact hs.leave hl (.inr ⟨rfl, rfl⟩) (ImageWriter.workList_leave hl) rfl
  | word e rest a d last hl he =>
    refine hs.leave hl (.inr ⟨?_, rfl⟩) (ImageWriter.workList_leave hl) rfl
    cases e with
    | record => cases he
    | _ => rfl
  | head e rest l cls a d hl he hbuf =>
    refine hs.leave (l := l) hl ?_ (ImageWriter.workList_leave hl) rfl
    rcases hbuf with ⟨hrec, r, hb⟩ | ⟨hover, hb⟩
    · exact .inl ⟨hrec, by rw [hb]; rfl⟩
    · refine .inr ⟨?_, by rw [hb]⟩
      cases e with
      | overflow => rfl
      | _ => cases hover
  | snapshotEnd rest a d hl => exact hs.leave hl (.inr ⟨rfl, rfl⟩) (ImageWriter.workList_leave hl) rfl
  | _ => exact ImageWriter.listed_of_eq hs rfl rfl

theorem WorkEntry.undue_isRecord (e : WorkEntry) : e.undue.isRecord = e.isRecord := by cases e <;> rfl

theorem WorkEntry.undue_isOverflow (e : WorkEntry) : e.undue.isOverflow = e.isOverflow := by cases e <;> rfl

/-- The records of the list after an OVERFLOW entry is placed are those before. -/
theorem filter_isRecord_placeOverflow (b : Bool) (l : List WorkEntry) :
    ((placeOverflow b l).filter WorkEntry.isRecord).length = (l.filter WorkEntry.isRecord).length := by
  unfold placeOverflow
  split
  · rfl
  · split
    · rfl
    · next e rest _ =>
      have other : (WorkEntry.overflow none).isRecord = false := rfl
      split
      · simp [List.filter_cons, other]
      · rw [List.filter_cons_of_neg (by decide), List.filter_cons, List.filter_cons, WorkEntry.undue_isRecord]
        split <;> rfl

theorem filter_isOverflow_placeOverflow (b : Bool) {l : List WorkEntry}
    (h : (l.filter WorkEntry.isOverflow).length ≤ 1) : ((placeOverflow b l).filter WorkEntry.isOverflow).length ≤ 1 := by
  unfold placeOverflow
  split
  · exact h
  · next habsent =>
    have absent : l.filter WorkEntry.isOverflow = [] :=
      List.filter_eq_nil_iff.mpr fun e he hover => habsent (List.any_eq_true.mpr ⟨e, he, hover⟩)
    split
    · exact le_refl _
    · next e rest _ =>
      have placed : (WorkEntry.overflow none).isOverflow = true := rfl
      rw [List.filter_cons] at absent
      split at absent
      · cases absent
      · next he =>
        split
        · simp [he, absent, placed]
        · simp [he, absent, placed, WorkEntry.undue_isOverflow]

theorem ImageWriter.listed_tailMoved {s : State} (h : s.writer.listed) (k : Nat) : (s.tailMoved k).writer.listed := by
  obtain ⟨hd, ho, hx, hr⟩ := h
  refine ⟨?_, ?_, ?_, ?_⟩
  · rw [s.count_tailMoved k rfl rfl]; exact hd
  · unfold State.tailMoved
    dsimp only
    split
    · exact filter_isOverflow_placeOverflow _ ho
    · exact ho
  · rw [s.count_tailMoved k rfl rfl]; exact hx
  · show _ = s.writer.buffer.length
    rw [← hr]
    unfold State.tailMoved
    dsimp only
    split
    · exact filter_isRecord_placeOverflow _ _
    · rfl

/-- The head entry changed to another of its kind. -/
theorem ImageWriter.listed_head {w w' : ImageWriter} (h : w.listed) {e e' : WorkEntry} {rest : List WorkEntry}
    (hl : w.workList = e :: rest) (hrec : e'.isRecord = e.isRecord) (hover : e'.isOverflow = e.isOverflow)
    (hd : e' ≠ .droppedCount) (hx : e' ≠ .snapshot) (hw : w'.workList = e' :: rest) (hb : w'.buffer = w.buffer) :
    w'.listed := by
  obtain ⟨hd', ho', hx', hr'⟩ := h
  rw [hl] at hd' ho' hx' hr'
  refine ⟨?_, ?_, ?_, ?_⟩ <;> rw [hw]
  · rw [List.count_cons_of_ne hd]; exact List.count_le_count_cons.trans hd'
  · rw [List.filter_cons, hover]
    rw [List.filter_cons] at ho'
    split at ho'
    · next he => rw [if_pos he]; exact ho'
    · next he => rw [if_neg he]; exact ho'
  · rw [List.count_cons_of_ne hx]; exact List.count_le_count_cons.trans hx'
  · rw [List.filter_cons, hrec, hb]
    rw [List.filter_cons] at hr'
    split at hr'
    · next he => rw [if_pos he]; exact hr'
    · next he => rw [if_neg he]; exact hr'

theorem State.listed_recordDue {s : State} (h : s.writer.listed) : s.recordDue.writer.listed := by
  unfold State.recordDue
  split
  · next rest hl =>
    split
    · have head : (s.writer.workList.filter WorkEntry.isRecord).length
          = (rest.filter WorkEntry.isRecord).length + 1 := by rw [hl]; rfl
      have len : s.writer.buffer.length = s.writer.buffer.tail.length + 1 := by
        rw [List.length_tail, ← h.record, head, Nat.add_sub_cancel]
      exact ImageWriter.listed_placeDropped (h.leave (l := s.writer.buffer.tail) hl (.inl ⟨rfl, len⟩)
        (ImageWriter.workList_leave hl) rfl)
    · exact ImageWriter.listed_head h hl (e' := .record true) rfl rfl nofun nofun rfl rfl
  · exact h

theorem State.listed_overflowTurn {s : State} (h : s.writer.listed) : s.overflowTurn.writer.listed := by
  unfold State.overflowTurn
  split
  · next rest hl =>
    split
    · exact h.leave hl (.inr ⟨rfl, rfl⟩) (ImageWriter.workList_leave hl) rfl
    · exact ImageWriter.listed_placeDropped
        (ImageWriter.listed_head h hl (e' := .overflow (some (overflowRecord s))) rfl rfl nofun nofun rfl rfl)
  · exact h

/-- Entries that are none of GUARD's are none that the law counts. -/
theorem WorkEntry.uncounted_of_ofGuard {e : WorkEntry} (h : e.ofGuard = false) : e.counted = false := by
  cases e with
  | station | setupResult | entering => rfl
  | _ => cases h

theorem ImageWriter.listed_of_uncounted {w : ImageWriter} (h : ∀ e ∈ w.workList, e.counted = false)
    (hb : w.buffer = []) : w.listed := by
  obtain ⟨hd, ho, hx, hr⟩ := uncounted_list h
  exact ⟨by rw [hd]; decide, by rw [ho]; decide, by rw [hx]; decide, by rw [hr, hb]; rfl⟩

theorem Act.listed {s t : State} (h : Act s t) (hs : s.workListLaw) : t.writer.listed := by
  obtain ⟨hlist, hsnap, happart⟩ := s.workListLaw_iff.mp hs
  cases h with
  | claims _ h => exact h.touches.keeps (P := fun u => u.writer.listed) (fun hst hu => ImageWriter.listed_joins hst.joins hu) hlist
  | pass p w rest k =>
    show (s.writer.checkTail k w.data.toNat).listed
    unfold ImageWriter.checkTail
    split
    · exact ImageWriter.listed_of_eq hlist rfl rfl
    · exact hlist
  | memoryGrant _ _ ht => exact (State.granted ht).listed hlist
  | tail => exact ImageWriter.listed_tailMoved (s := s.finish) (s.finish_writer ▸ hlist) _
  | recordHead => exact ImageWriter.listed_of_eq (w := s.finish.writer) (s.finish_writer ▸ hlist) rfl rfl
  | snapshotDone => exact ImageWriter.listed_of_eq (w := s.finish.writer) (s.finish_writer ▸ hlist) rfl rfl
  | recordDue => exact State.listed_recordDue hlist
  | overflow => exact State.listed_overflowTurn hlist
  | snapshotTaken x reply _ hx _ =>
    have absent : WorkEntry.snapshot ∉ s.writer.workList := fun hin => (hsnap.entry hin).1 hx
    have replied := ImageWriter.listed_append (w' := s.writer.append (.reply reply)) hlist (l := [.reply reply])
      (by simp [WorkEntry.counted]) rfl rfl
    obtain ⟨hd, ho, -, hr⟩ := replied
    refine ⟨?_, ?_, ?_, ?_⟩
    · rw [State.snapshotTaken, List.count_append]; exact hd
    · rw [State.snapshotTaken, List.filter_append, List.length_append]; exact ho
    · show (s.writer.workList ++ [WorkEntry.reply reply] ++ [WorkEntry.snapshot]).count _ ≤ 1
      simp [List.count_append, List.count_eq_zero.mpr absent]
    · rw [State.snapshotTaken, List.filter_append, List.length_append]; exact hr
  | closeFails code k => exact ImageWriter.listed_append hlist (l := [_]) (by simp [WorkEntry.counted]) rfl rfl
  | closeSucceeds d =>
    exact ImageWriter.listed_append hlist (l := _ :: enteringWrites s.copy)
      (by simp [enteringWrites, WorkEntry.counted]) rfl rfl
  | readIn n w => exact ImageWriter.listed_placeStation hlist n
  | guardEntry hp =>
    exact ImageWriter.listed_of_uncounted
      (fun e he => WorkEntry.uncounted_of_ofGuard (happart (by rw [hp]; nofun) e he)) rfl
  | reset => exact ImageWriter.listed_of_uncounted nofun rfl
  | _ => exact hlist

/-! ### The snapshot's entry -/

theorem State.snapshotLaw_of {s t : State} (h : s.snapshotLaw)
    (hl : .snapshot ∈ t.writer.workList → .snapshot ∈ s.writer.workList) (hx : t.writer.snapshot = s.writer.snapshot)
    (ho : t.flightOwner = some .snapshotEnd → s.flightOwner = some .snapshotEnd) : t.snapshotLaw := by
  refine ⟨fun hin => ?_, fun hend => ?_⟩
  · obtain ⟨hsome, hown⟩ := h.entry (hl hin)
    exact ⟨hx ▸ hsome, fun hend => hown (ho hend)⟩
  · rw [hx]
    exact h.flight (ho hend)

theorem State.flightOwner_of_free {s : State} (h : s.inFlight = none) : s.flightOwner = none := by
  unfold State.flightOwner
  rw [h]
  rfl

theorem State.flightOwner_congr {s t : State} (h : t.inFlight = s.inFlight) : t.flightOwner = s.flightOwner := by
  unfold State.flightOwner
  rw [h]

/-- The grant of the last write of a snapshot takes its one entry out of the list. -/
theorem Granted.snapshotLaw {s t : State} (h : Granted s t) (hlist : s.writer.listed)
    (hs : s.snapshotLaw) : t.snapshotLaw := by
  have leaves : ∀ {e : WorkEntry} {rest : List WorkEntry}, s.writer.workList = e :: rest →
      WorkEntry.snapshot ∈ s.writer.leave.workList → .snapshot ∈ s.writer.workList := fun hl hin => by
    rw [ImageWriter.workList_leave hl] at hin
    rw [hl]
    exact List.mem_cons_of_mem _ hin
  cases h with
  | station n rest hl => exact State.snapshotLaw_of hs (leaves hl) rfl nofun
  | word e rest a d last hl =>
    refine State.snapshotLaw_of hs (leaves hl) rfl fun h => ?_
    change some (if last = true then Owner.enteringEnd else Owner.none) = _ at h
    cases last <;> cases h
  | head e rest l cls a d hl => exact State.snapshotLaw_of hs (leaves hl) rfl nofun
  | snapshotEnd rest a d hl hx =>
    refine ⟨fun hin => ?_, fun _ => hx⟩
    change WorkEntry.snapshot ∈ s.writer.leave.workList at hin
    rw [ImageWriter.workList_leave hl] at hin
    have once := hlist.snapshot
    rw [hl, List.count_cons_self] at once
    have : 0 < rest.count .snapshot := List.count_pos_iff.mpr hin
    omega
  | idle => exact hs
  | _ => exact State.snapshotLaw_of hs id rfl nofun

theorem Aside.snapshotLaw {s t : State} (h : Aside s t) (hs : s.snapshotLaw) : t.snapshotLaw := by
  cases h with
  | quiet h =>
    have hw : t.writer = s.writer := by rw [h.frame]
    rcases h.flight with heq | ⟨hnone, -⟩
    · exact State.snapshotLaw_of hs (by rw [hw]; exact id) (by rw [hw]) fun ho => by rwa [State.flightOwner_congr heq] at ho
    · exact State.snapshotLaw_of hs (by rw [hw]; exact id) (by rw [hw]) fun ho => by
        rw [State.flightOwner_of_free hnone] at ho
        cases ho
  | hand r =>
    exact State.snapshotLaw_of hs (ImageWriter.snapshot_joins (.single (.record s.writer r))).mp
      (by rw [s.writer.took_hand r]) id
  | reply w =>
    refine State.snapshotLaw_of hs (fun hin => ?_) rfl id
    change WorkEntry.snapshot ∈ s.writer.workList ++ [WorkEntry.reply w] at hin
    simpa using hin
  | _ => exact State.snapshotLaw_of hs id rfl id

theorem mem_placeOverflow {b : Bool} {l : List WorkEntry} {x : WorkEntry} (hrec : x.isRecord = false)
    (hover : x.isOverflow = false) : x ∈ placeOverflow b l ↔ x ∈ l := by
  rw [← List.count_pos_iff, ← List.count_pos_iff, count_placeOverflow b l hrec hover]

theorem Act.snapshotLaw {s t : State} (h : Act s t) (hs : s.workListLaw) : t.snapshotLaw := by
  obtain ⟨hlist, hsnap, happart⟩ := s.workListLaw_iff.mp hs
  have counted : ∀ {w : ImageWriter}, w.workList.count .snapshot = s.writer.workList.count .snapshot →
      WorkEntry.snapshot ∈ w.workList → .snapshot ∈ s.writer.workList := fun hc hin => by
    rw [← List.count_pos_iff] at hin ⊢
    omega
  have free : ∀ {u : State}, u.inFlight = none → u.flightOwner = some .snapshotEnd → s.flightOwner = some .snapshotEnd :=
    fun hu ho => by
      rw [State.flightOwner_of_free hu] at ho
      cases ho
  cases h with
  | claims _ h =>
    have frame := h.claimsOnly.frame
    have joins := h.touches.keeps (P := fun u => Relation.ReflTransGen ImageWriter.Joins s.writer u.writer)
      (fun hst hu => hu.trans hst.joins) .refl
    refine State.snapshotLaw_of hsnap (ImageWriter.snapshot_joins joins).mp (by rw [h.claimsOnly.took]) fun ho => ?_
    rwa [State.flightOwner_congr (s := s) (by rw [frame])] at ho
  | pass p w rest k =>
    have hw : (s.writer.checkTail k w.data.toNat).workList = s.writer.workList
        ∧ (s.writer.checkTail k w.data.toNat).snapshot = s.writer.snapshot := by
      unfold ImageWriter.checkTail
      split <;> exact ⟨rfl, rfl⟩
    exact State.snapshotLaw_of hsnap (fun hin => hw.1 ▸ hin) hw.2 id
  | memoryGrant _ _ ht =>
    obtain ⟨hentry, hflight⟩ := (State.granted ht).snapshotLaw hlist hsnap
    exact ⟨hentry, hflight⟩
  | tail =>
    refine State.snapshotLaw_of hsnap (counted ?_) ?_ (free s.finish_inFlight)
    · rw [State.count_tailMoved _ _ rfl rfl, s.finish_writer]
    · show s.finish.writer.snapshot = _
      rw [s.finish_writer]
  | recordHead =>
    refine State.snapshotLaw_of hsnap (counted ?_) ?_ (free s.finish_inFlight)
    · show s.finish.writer.workList.count _ = _
      rw [s.finish_writer]
    · show s.finish.writer.snapshot = _
      rw [s.finish_writer]
  | snapshotDone _ ho =>
    have absent : WorkEntry.snapshot ∉ s.writer.workList := fun hin => (hsnap.entry hin).2 ho
    refine ⟨fun hin => absurd ?_ absent, fun hend => ?_⟩
    · change WorkEntry.snapshot ∈ s.finish.writer.workList at hin
      rwa [s.finish_writer] at hin
    · have none := State.flightOwner_of_free s.finish_inFlight
      change s.finish.flightOwner = _ at hend
      rw [none] at hend
      cases hend
  | recordDue =>
    exact State.snapshotLaw_of hsnap (counted (s.count_recordDue rfl nofun)) (by rw [s.recordDue_writer]) fun ho => by
      rwa [State.flightOwner_congr (s := s) (by rw [s.recordDue_frame])] at ho
  | overflow =>
    exact State.snapshotLaw_of hsnap (counted (s.count_overflowTurn rfl nofun)) (by rw [s.overflowTurn_writer]) fun ho => by
      rwa [State.flightOwner_congr (s := s) (by rw [s.overflowTurn_frame])] at ho
  | snapshotTaken x reply _ hx hf =>
    refine ⟨fun _ => ⟨nofun, ?_⟩, fun _ => nofun⟩
    rw [State.flightOwner_of_free (s := s.snapshotTaken x reply) hf]
    nofun
  | closeFails code k =>
    refine State.snapshotLaw_of hsnap (fun hin => ?_) rfl id
    change WorkEntry.snapshot ∈ s.writer.workList ++ [_] at hin
    simpa using hin
  | closeSucceeds d =>
    refine State.snapshotLaw_of hsnap (fun hin => ?_) rfl id
    change WorkEntry.snapshot ∈ s.writer.workList ++ _ :: enteringWrites s.copy at hin
    simpa [enteringWrites] using hin
  | readIn n w => exact State.snapshotLaw_of hsnap (ImageWriter.snapshot_joins (.single (.station s.writer n))).mp rfl id
  | guardEntry hp hf =>
    refine ⟨fun hin => ?_, fun hend => ?_⟩
    · exact nomatch happart (by rw [hp]; nofun) _ hin
    · rw [State.flightOwner_of_free (s := s.enterGuard) hf] at hend
      cases hend
  | reset => exact ⟨nofun, nofun⟩
  | _ => exact State.snapshotLaw_of hsnap id rfl id

/-! ### Outside GUARD -/

theorem Granted.workList {s t : State} (h : Granted s t) :
    t.writer.workList = s.writer.workList ∨ t.writer.workList = s.writer.workList.tail := by
  cases h with
  | station | word | head | snapshotEnd => exact .inr rfl
  | _ => exact .inl rfl

theorem Aside.listApart {s t : State} (h : Aside s t) (hs : s.listApart) : t.listApart := by
  cases h with
  | quiet h => rw [h.frame]; exact hs
  | hand r hg => exact fun hne => absurd hg hne
  | reply w hg => exact fun hne => absurd hg hne
  | _ => exact hs

theorem Act.listApart {s t : State} (h : Act s t) (hs : s.listApart) : t.listApart := by
  have inside : s.part = .guard → t.part = s.part → t.listApart := fun hg ht hne => absurd (ht.trans hg) hne
  have joined : ∀ {l : List WorkEntry}, s.part ≠ .guard → (∀ e ∈ l, e.ofGuard = false) →
      ∀ e ∈ s.writer.workList ++ l, e.ofGuard = false := fun hne hl e he =>
    (List.mem_append.mp he).elim (hs hne e) (hl e)
  cases h with
  | claims hg h => exact inside hg h.part
  | tick hg => exact inside hg rfl
  | pass p w rest k =>
    intro hne
    show ∀ e ∈ (s.writer.checkTail k w.data.toNat).workList, _
    unfold ImageWriter.checkTail
    split <;> exact hs hne
  | memoryGrant _ _ ht =>
    have frame := State.grantTo_frame ht
    intro hne e he
    have part : s.part ≠ .guard := fun hg => hne (by dsimp only; rw [frame]; exact hg)
    rcases (State.granted ht).workList with heq | heq
    · exact hs part e (heq ▸ he)
    · exact hs part e (List.mem_of_mem_tail (heq ▸ he))
  | tail hg => exact inside hg s.finish_part
  | recordHead _ hg => exact inside hg s.finish_part
  | snapshotDone hg => exact inside hg s.finish_part
  | recordDue hg => exact inside hg (by rw [s.recordDue_frame])
  | overflow hg => exact inside hg (by rw [s.overflowTurn_frame])
  | snapshotTaken x reply hg => exact inside hg rfl
  | closeFails code k hp =>
    exact fun hne => joined hne (by simp [WorkEntry.ofGuard])
  | closeSucceeds d hp =>
    exact fun _ => joined (by rw [hp]; nofun) (by simp [enteringWrites, WorkEntry.ofGuard])
  | readIn n w hp =>
    intro hne
    show ∀ e ∈ (s.writer.placeOnce (.station n)).workList, _
    unfold ImageWriter.placeOnce
    dsimp only
    split
    · exact hs hne
    · exact joined hne (by simp [WorkEntry.ofGuard])
  | guardEntry => exact fun hne => absurd rfl hne
  | reset => exact fun _ => nofun
  | _ => exact hs

theorem Aside.listed {s t : State} (h : Aside s t) (hs : s.writer.listed) : t.writer.listed := by
  cases h with
  | quiet h =>
    have hw : t.writer = s.writer := by rw [h.frame]
    rwa [hw]
  | hand r => exact ImageWriter.listed_hand hs r
  | reply w => exact ImageWriter.listed_append hs (l := [.reply w]) (by simp [WorkEntry.counted]) rfl rfl
  | _ => exact hs

/-- What the work list holds, every step keeps (second clause of O57). -/
theorem step_workListLaw {s t : State} (hs : s.workListLaw) (hstep : step s = .next t) : t.workListLaw := by
  refine step_keeps (P := State.workListLaw) (fun _ _ h => h) (fun {s t} h hs => ?_) (fun {s t} h hs => ?_) hstep hs
  · obtain ⟨hlist, hsnap, happart⟩ := s.workListLaw_iff.mp hs
    exact t.workListLaw_iff.mpr ⟨h.listed hlist, h.snapshotLaw hsnap, h.listApart happart⟩
  · exact t.workListLaw_iff.mpr ⟨h.listed hs, h.snapshotLaw hs, h.listApart (s.workListLaw_iff.mp hs).2.2⟩

/-- Settles O57: an entry is placed with its write-back, a change that the word shows sets it, and each act's writes of
the work list are known. -/
theorem everyStepKeepsTheWriteBackLaw : Obligations.EveryStepKeepsTheWriteBackLaw := by
  refine ⟨fun s t hs hstep => ?_, fun s t hs hstep => step_workListLaw hs hstep, fun s t _ hstep hg n hchange => ?_⟩
  · exact step_keeps (P := State.writeBackLaw) (fun _ _ h => h) (fun h hs => h.writeBackLaw hs)
      (fun h hs => h.writeBackLaw hs) hstep hs
  · rcases step_told hstep hg n with same | pending
    · simp only [Station.shown, Prod.mk.injEq] at same
      obtain ⟨heff, hauth, hstate, htrip⟩ := same
      rcases hchange with h | h | h | h
      · exact absurd heff h
      · exact absurd hauth h
      · exact absurd hstate h
      · exact absurd htrip h
    · exact pending

end Sys2Proof.Machine
end

section
/-! PROOF. Canonical form, bounds and the report ring (O52). -/

namespace Sys2Proof.Machine

open Sys2Proof

/-! ### Canonical form -/

theorem Aside.canonical {s t : State} (h : Aside s t) (hs : s.canonical) : t.canonical := by
  obtain ⟨hmem, hcopy⟩ := hs
  refine ⟨?_, by rw [h.still.copy]; exact hcopy⟩
  cases h with
  | quiet h => exact h.mem hmem
  | _ => exact hmem

theorem Act.canonical {s t : State} (h : Act s t) (hs : s.canonical) : t.canonical := by
  obtain ⟨hmem, hcopy⟩ := hs
  have finished : Memory.wf s.finish.mem = true ∧ Cells.wf 0 s.finish.copy = true :=
    ⟨s.wf_finish hmem, s.finish_copy ▸ hcopy⟩
  cases h with
  | claims _ h => rw [h.claimsOnly.frame]; exact ⟨hmem, hcopy⟩
  | memoryGrant _ _ ht =>
    have frame := State.grantTo_frame ht
    rw [frame]
    exact ⟨hmem, hcopy⟩
  | tail => exact finished
  | recordHead => exact finished
  | snapshotDone => exact finished
  | recordDue => rw [s.recordDue_frame]; exact ⟨hmem, hcopy⟩
  | overflow => rw [s.overflowTurn_frame]; exact ⟨hmem, hcopy⟩
  | copied c _ hc => exact ⟨hmem, hc hcopy⟩
  | reset => exact ⟨s.wf_finish hmem, rfl⟩
  | _ => exact ⟨hmem, hcopy⟩

/-! ### Bounds (R160, R189) -/

/-- The record buffer and the dropped count within their bounds. -/
def ImageWriter.within (w : ImageWriter) : Prop := w.buffer.length ≤ 16 ∧ w.dropped ≤ 65535

theorem State.bounded_iff (s : State) :
    s.bounded ↔ s.control.buffer.length ≤ 8 ∧ s.scanner.buffer.length ≤ 8 ∧ s.writer.within := Iff.rfl

theorem ImageWriter.within_countDrop {w : ImageWriter} (h : w.buffer.length ≤ 16) : w.countDrop.within :=
  ⟨h, Nat.min_le_left _ _⟩

theorem ImageWriter.within_hand {w : ImageWriter} (h : w.within) (r : ReportRecord) : (w.hand r).within := by
  obtain ⟨hbuf, hdrop⟩ := h
  unfold ImageWriter.hand
  split
  · next hroom =>
    have room : w.buffer.length < 16 := hroom
    refine ⟨?_, hdrop⟩
    dsimp only
    rw [List.length_append, List.length_singleton]
    omega
  · exact ImageWriter.within_countDrop hbuf

theorem ImageWriter.within_joins {w w' : ImageWriter} (h : Relation.ReflTransGen ImageWriter.Joins w w') (hw : w.within) :
    w'.within :=
  ImageWriter.Joins.keeps (P := ImageWriter.within) (fun _ r h => ImageWriter.within_hand h r) (fun _ _ h => h) h hw

theorem Claims.joins {s t : State} (h : Claims s t) : Relation.ReflTransGen ImageWriter.Joins s.writer t.writer :=
  h.touches.keeps (P := fun u => Relation.ReflTransGen ImageWriter.Joins s.writer u.writer)
    (fun hst hu => hu.trans hst.joins) .refl

/-- Ports whose buffers hold no more than 8 writes. -/
def State.portsWithin (s : State) : Prop := ∀ p, (s.port p).buffer.length ≤ 8

theorem State.portsWithin_iff (s : State) :
    s.portsWithin ↔ s.control.buffer.length ≤ 8 ∧ s.scanner.buffer.length ≤ 8 :=
  ⟨fun h => ⟨h .control, h .scanner⟩, fun h p => by cases p <;> [exact h.1; exact h.2]⟩

theorem State.port_withPort (s : State) (p q : Port) (x : PortState) :
    (s.withPort p x).port q = if q = p then x else s.port q := by
  cases p <;> cases q <;> rfl

theorem State.portsWithin.withPort {s : State} (h : s.portsWithin) (p : Port) {x : PortState} (hx : x.buffer.length ≤ 8) :
    (s.withPort p x).portsWithin := by
  intro q
  rw [State.port_withPort]
  split
  · exact hx
  · exact h q

theorem State.portsWithin_of_eq {s t : State} (h : s.portsWithin) (hc : t.control = s.control) (hs : t.scanner = s.scanner) :
    t.portsWithin := by
  rw [State.portsWithin_iff] at *
  rw [hc, hs]
  exact h

/-- A buffer that took at most one write, with room for it. -/
theorem length_of_taken {x y : PortState} (hy : y.buffer.length ≤ 8)
    (h : x.buffer = y.buffer ∨ y.buffer.length < 8 ∧ ∃ w, x.buffer = y.buffer ++ [w]) : x.buffer.length ≤ 8 := by
  rcases h with heq | ⟨hroom, w, heq⟩ <;> rw [heq]
  · exact hy
  · rw [List.length_append, List.length_singleton]
    omega

theorem Aside.portsWithin {s t : State} (h : Aside s t) (hs : s.portsWithin) : t.portsWithin := by
  cases h with
  | quiet h => exact State.portsWithin_of_eq hs (by rw [h.frame]) (by rw [h.frame])
  | port p x _ hb => exact hs.withPort p (length_of_taken (hs p) hb)
  | pop p w rest _ hb _ =>
    refine hs.withPort p ?_
    have := hs p
    rw [hb, List.length_cons] at this
    exact (Nat.le_succ _).trans this
  | _ => exact State.portsWithin_of_eq hs rfl rfl

/-- A grant takes the head write out of the granted port's buffer, or leaves the ports. -/
theorem Granted.ports {s t : State} (h : Granted s t) : (t.control = s.control ∧ t.scanner = s.scanner)
    ∨ ∃ p w rest k, (s.port p).buffer = w :: rest ∧ (s.port p).disposed = some k
      ∧ t = { s.withPort p { s.port p with buffer := rest, disposed := none } with
        inFlight := some { requester := requesterOf p, transfer := .write (writeAt w) w.data w.enables, owner := .port k } } := by
  cases h with
  | write p w rest k hb hd => exact .inr ⟨p, w, rest, k, hb, hd, rfl⟩
  | _ => exact .inl ⟨rfl, rfl⟩

theorem Act.portsWithin {s t : State} (h : Act s t) (hs : s.portsWithin) : t.portsWithin := by
  have fresh : ∀ x : PortState, x.buffer.length ≤ 8 → x.release.buffer.length ≤ 8 :=
    fun x hx => length_of_taken hx x.release_buffer.2
  cases h with
  | claims _ h => exact State.portsWithin_of_eq hs (by rw [h.claimsOnly.frame]) (by rw [h.claimsOnly.frame])
  | pass p w rest k =>
    exact State.portsWithin_of_eq (hs.withPort p (x := { s.port p with disposed := some k }) (hs p)) rfl rfl
  | @memoryGrant t r _ _ ht =>
    rcases (State.granted ht).ports with ⟨hc, hsc⟩ | ⟨p, w, rest, k, hb, -, rfl⟩
    · exact State.portsWithin_of_eq hs hc hsc
    · refine State.portsWithin_of_eq (hs.withPort p (x := { s.port p with buffer := rest, disposed := none }) ?_) rfl rfl
      have := hs p
      rw [hb, List.length_cons] at this
      exact (Nat.le_succ _).trans this
  | tail => exact State.portsWithin_of_eq hs s.finish_control s.finish_scanner
  | recordHead => exact State.portsWithin_of_eq hs s.finish_control s.finish_scanner
  | snapshotDone => exact State.portsWithin_of_eq hs s.finish_control s.finish_scanner
  | recordDue => rw [s.recordDue_frame]; exact State.portsWithin_of_eq hs rfl rfl
  | overflow => rw [s.overflowTurn_frame]; exact State.portsWithin_of_eq hs rfl rfl
  | guardEntry =>
    exact (State.portsWithin_iff _).mpr ⟨fresh _ (hs .control), fresh _ (hs .scanner)⟩
  | reset => exact (State.portsWithin_iff _).mpr ⟨fresh _ (Nat.zero_le _), fresh _ (Nat.zero_le _)⟩
  | _ => exact State.portsWithin_of_eq hs rfl rfl

theorem Aside.within {s t : State} (h : Aside s t) (hs : s.writer.within) : t.writer.within := by
  cases h with
  | quiet h =>
    have hw : t.writer = s.writer := by rw [h.frame]
    rwa [hw]
  | hand r => exact ImageWriter.within_hand hs r
  | _ => exact hs

theorem Granted.within {s t : State} (h : Granted s t) (hs : s.writer.within) : t.writer.within := by
  cases h with
  | head e rest l cls a d _ _ hbuf =>
    obtain ⟨hb, hd⟩ := hs
    refine ⟨?_, hd⟩
    show l.length ≤ 16
    rcases hbuf with ⟨-, r, heq⟩ | ⟨-, rfl⟩
    · rw [heq, List.length_cons] at hb
      exact (Nat.le_succ _).trans hb
    · exact hb
  | _ => exact hs

theorem State.within_recordDue {s : State} (hs : s.writer.within) : s.recordDue.writer.within := by
  unfold State.recordDue
  split
  · split
    · refine ImageWriter.within_countDrop ?_
      show s.writer.buffer.tail.length ≤ 16
      rw [List.length_tail]
      exact (Nat.sub_le _ _).trans hs.1
    · exact hs
  · exact hs

theorem State.within_overflowTurn {s : State} (hs : s.writer.within) : s.overflowTurn.writer.within := by
  unfold State.overflowTurn
  split
  · split
    · exact hs
    · exact ⟨hs.1, Nat.zero_le _⟩
  · exact hs

theorem Act.within {s t : State} (h : Act s t) (hs : s.writer.within) : t.writer.within := by
  have finished : s.finish.writer.within := s.finish_writer ▸ hs
  cases h with
  | claims _ h => exact ImageWriter.within_joins h.joins hs
  | pass p w rest k =>
    show (s.writer.checkTail k w.data.toNat).within
    unfold ImageWriter.checkTail
    split <;> exact hs
  | memoryGrant _ _ ht => exact (State.granted ht).within hs
  | tail => exact finished
  | recordHead => exact finished
  | snapshotDone => exact finished
  | recordDue => exact State.within_recordDue hs
  | overflow => exact State.within_overflowTurn hs
  | guardEntry => exact ⟨Nat.zero_le _, Nat.zero_le _⟩
  | reset => exact ⟨Nat.zero_le _, Nat.zero_le _⟩
  | _ => exact hs

/-! ### Entries that have passed their check -/

/-- Only the head of the work list has passed its check, and outside GUARD none has. -/
structure State.headPasses (s : State) : Prop where
  tail : ∀ e ∈ s.writer.workList.tail, e.passed = false
  apart : s.part ≠ .guard → ∀ e ∈ s.writer.workList, e.passed = false

/-- Entries that have not passed join the tail. -/
theorem passed_tail_append {l l' : List WorkEntry} (h : ∀ e ∈ l.tail, e.passed = false)
    (h' : ∀ e ∈ l', e.passed = false) : ∀ e ∈ (l ++ l').tail, e.passed = false := by
  cases l with
  | nil => exact fun e he => h' e (List.mem_of_mem_tail he)
  | cons x rest => exact fun e he => (List.mem_append.mp he).elim (h e) (h' e)

/-- A list grows by entries that have not passed their check. -/
def Grows (l l' : List WorkEntry) : Prop := ∃ m, l' = l ++ m ∧ ∀ e ∈ m, e.passed = false

theorem Grows.refl (l : List WorkEntry) : Grows l l := ⟨[], (List.append_nil l).symm, nofun⟩

theorem Grows.trans {a b c : List WorkEntry} (h : Grows a b) (h' : Grows b c) : Grows a c := by
  obtain ⟨m, rfl, hm⟩ := h
  obtain ⟨m', rfl, hm'⟩ := h'
  exact ⟨m ++ m', List.append_assoc _ _ _, fun e he => (List.mem_append.mp he).elim (hm e) (hm' e)⟩

theorem Grows.one (l : List WorkEntry) {e : WorkEntry} (h : e.passed = false) : Grows l (l ++ [e]) :=
  ⟨[e], rfl, fun _ hx => List.mem_singleton.mp hx ▸ h⟩

theorem Grows.placeOnce (w : ImageWriter) {e : WorkEntry} (h : e.passed = false) : Grows w.workList (w.placeOnce e).workList := by
  unfold ImageWriter.placeOnce
  dsimp only
  split
  · exact .refl _
  · exact .one _ h

theorem Grows.hand (w : ImageWriter) (r : ReportRecord) : Grows w.workList (w.hand r).workList := by
  unfold ImageWriter.hand
  split
  · exact .one _ rfl
  · exact Grows.placeOnce { w with dropped := min 65535 (w.dropped + 1) } rfl

theorem Grows.joins {w w' : ImageWriter} (h : Relation.ReflTransGen ImageWriter.Joins w w') : Grows w.workList w'.workList :=
  ImageWriter.Joins.keeps (P := fun u => Grows w.workList u.workList) (fun u r hu => hu.trans (Grows.hand u r))
    (fun u n hu => hu.trans (Grows.placeOnce u (e := .station n) rfl)) h (.refl _)

theorem Grows.passed {l l' : List WorkEntry} (h : Grows l l') {e : WorkEntry} (he : e ∈ l') (hp : e.passed = true) : e ∈ l := by
  obtain ⟨m, rfl, hm⟩ := h
  rcases List.mem_append.mp he with he | he
  · exact he
  · rw [hm e he] at hp
    cases hp

theorem State.headPasses.grows {s t : State} (h : s.headPasses) (hl : Grows s.writer.workList t.writer.workList)
    (hp : t.part = .guard ∨ t.part = s.part) : t.headPasses := by
  refine ⟨?_, fun hne e he => ?_⟩
  · obtain ⟨m, heq, hm⟩ := hl
    rw [heq]
    exact passed_tail_append h.tail hm
  · have part : s.part ≠ .guard := by
      rcases hp with hp | hp
      · exact absurd hp hne
      · rwa [hp] at hne
    by_contra hpass
    have passed : e.passed = true := by simpa using hpass
    rw [h.apart part e (hl.passed he passed)] at passed
    cases passed

/-- After the head has left, no entry has passed. -/
theorem State.headPasses.leave {s t : State} (h : s.headPasses) (hl : t.writer.workList = s.writer.workList.tail) :
    t.headPasses ∧ ∀ e ∈ t.writer.workList, e.passed = false := by
  have none : ∀ e ∈ t.writer.workList, e.passed = false := fun e he => h.tail e (hl ▸ he)
  exact ⟨⟨fun e he => none e (List.mem_of_mem_tail he), fun _ => none⟩, none⟩

theorem Aside.grows {s t : State} (h : Aside s t) : Grows s.writer.workList t.writer.workList := by
  cases h with
  | quiet h => rw [h.frame]; exact .refl _
  | hand r => exact Grows.hand _ r
  | reply w => exact .one _ rfl
  | _ => exact .refl _

/-- Where an OVERFLOW entry is placed, only what was the head can have passed its check, and only there (R192). -/
theorem passed_placeOverflow {b : Bool} {l : List WorkEntry} (h : ∀ e ∈ l.tail, e.passed = false) :
    (∀ e ∈ (placeOverflow b l).tail, e.passed = false)
      ∧ ∀ e ∈ placeOverflow b l, e.passed = true → e ∈ l := by
  unfold placeOverflow
  split
  · exact ⟨h, fun e he _ => he⟩
  · next habsent =>
    split
    · exact ⟨nofun, fun e he hp => by rw [List.mem_singleton.mp he] at hp; cases hp⟩
    · next e rest =>
      split
      · refine ⟨fun x hx => ?_, fun x hx hp => ?_⟩
        · rcases List.mem_cons.mp hx with rfl | hx
          · rfl
          · exact h x hx
        · rcases List.mem_cons.mp hx with rfl | hx
          · exact List.mem_cons_self
          · rcases List.mem_cons.mp hx with rfl | hx
            · cases hp
            · exact List.mem_cons_of_mem _ hx
      · have undue : e.undue.passed = false := by
          cases e with
          | overflow r => exact absurd rfl habsent
          | _ => rfl
        have none : ∀ x ∈ WorkEntry.overflow none :: e.undue :: rest, x.passed = false := fun x hx => by
          rcases List.mem_cons.mp hx with rfl | hx
          · rfl
          · rcases List.mem_cons.mp hx with rfl | hx
            · exact undue
            · exact h x hx
        exact ⟨fun x hx => none x (List.mem_of_mem_tail hx), fun x hx hp => by rw [none x hx] at hp; cases hp⟩

end Sys2Proof.Machine
end

section
/-! PROOF. The report ring (O52): head and tails as distances from the ring tail, and each part's effect on them. -/

namespace Sys2Proof.Machine

open Sys2Proof

/-! ### Distances in the ring (R188) -/

/-- The slots from the ring tail up to a slot. -/
def fromTail (cap ring x : Nat) : Nat := (x + cap - ring) % cap

theorem fromTail_eq {cap ring x : Nat} (hr : ring < cap) (hx : x < cap) :
    fromTail cap ring x = if ring ≤ x then x - ring else x + cap - ring := by
  unfold fromTail
  split
  · next hle =>
    have shift : x + cap - ring = x - ring + cap := by omega
    rw [shift, Nat.add_mod_right, Nat.mod_eq_of_lt (by omega)]
  · exact Nat.mod_eq_of_lt (by omega)

theorem ringDiff_eq {cap a b : Nat} (hb : b < cap) : ringDiff cap a b = fromTail cap b a := by
  unfold ringDiff fromTail
  rw [Nat.mod_eq_of_lt hb]

theorem fromTail_lt {cap ring x : Nat} (hr : ring < cap) : fromTail cap ring x < cap := Nat.mod_lt _ (by omega)

/-- A head that advances within the ring is one slot further from the tail. -/
theorem fromTail_nextSlot {cap ring head : Nat} (hr : ring < cap) (hh : head < cap)
    (hroom : fromTail cap ring head < cap - 1) :
    nextSlot cap head < cap ∧ fromTail cap ring (nextSlot cap head) = fromTail cap ring head + 1 := by
  have next : nextSlot cap head < cap := by unfold nextSlot; split <;> omega
  refine ⟨next, ?_⟩
  rw [fromTail_eq hr hh] at hroom ⊢
  rw [fromTail_eq hr next]
  unfold nextSlot at *
  split at hroom <;> split <;> split <;> omega

/-- A tail between the checked tail and the head lies between their distances. -/
theorem fromTail_between {cap ring checked head t : Nat} (hr : ring < cap) (hc : checked < cap) (hh : head < cap)
    (ht : t < cap) (hle : fromTail cap ring checked ≤ fromTail cap ring head)
    (hrange : fromTail cap checked t ≤ fromTail cap checked head) :
    fromTail cap ring checked ≤ fromTail cap ring t ∧ fromTail cap ring t ≤ fromTail cap ring head := by
  rw [fromTail_eq hr hc, fromTail_eq hr hh] at hle
  rw [fromTail_eq hc ht, fromTail_eq hc hh] at hrange
  rw [fromTail_eq hr hc, fromTail_eq hr hh, fromTail_eq hr ht]
  split at hle <;> split at hle <;> split at hrange <;> split at hrange <;> split <;> (try split) <;> omega

/-- Distances from a tail moved forward. -/
theorem fromTail_moved {cap ring t x : Nat} (hr : ring < cap) (ht : t < cap) (hx : x < cap)
    (hle : fromTail cap ring t ≤ fromTail cap ring x) :
    fromTail cap t x = fromTail cap ring x - fromTail cap ring t := by
  rw [fromTail_eq hr ht, fromTail_eq hr hx] at *
  rw [fromTail_eq ht hx]
  split at hle <;> split at hle <;> split <;> omega

/-! ### The law of the ring in GUARD -/

/-- A head write is in flight. -/
def State.headsFlying (s : State) : Nat :=
  match s.flightOwner with
  | some (.recordHead _) => 1
  | _ => 0

/-- The distance of a slot from the ring tail. -/
def State.distance (s : State) (x : Nat) : Nat := fromTail (Setup.capacity s.copy) s.writer.ringTail x

/-- Head and tails of the ring, the unread records, and a tail write on its way (R188, R190, R191). -/
structure State.ringHeld (s : State) : Prop where
  head_lt : s.writer.head < Setup.capacity s.copy
  ring_lt : s.writer.ringTail < Setup.capacity s.copy
  checked_lt : s.writer.checkedTail < Setup.capacity s.copy
  unread : s.writer.unread.length + s.headsFlying = s.distance s.writer.head
  room : s.writer.unread.length ≤ Setup.capacity s.copy - 1
  checked : s.distance s.writer.checkedTail ≤ s.distance s.writer.head
  scanner : s.scanner.disposed ≠ some .tail
  flying : s.flightOwner = some (.port .tail) →
    s.flightData.toNat < Setup.capacity s.copy ∧ s.distance s.flightData.toNat ≤ s.distance s.writer.checkedTail
  waiting : s.control.disposed = some .tail → ∃ w rest, s.control.buffer = w :: rest ∧ w.data.toNat = s.writer.checkedTail
  flown : s.control.disposed ≠ some .tail → s.flightOwner = some (.port .tail) → s.flightData.toNat = s.writer.checkedTail
  level : s.control.disposed ≠ some .tail → s.flightOwner ≠ some (.port .tail) → s.writer.checkedTail = s.writer.ringTail
  free : ∀ e ∈ s.writer.workList, e.passed = true → s.distance s.writer.head < Setup.capacity s.copy - 1

theorem State.ringLaw_iff (s : State) : s.ringLaw ↔ s.headPasses ∧ (s.part = .guard → s.ringHeld) := by
  constructor
  · rintro ⟨htail, happart, hguard⟩
    refine ⟨⟨htail, happart⟩, fun hg => ?_⟩
    obtain ⟨h1, h2, h3, h4, h5, h6, h7, h8, h9, h10, h11, h12⟩ := hguard hg
    exact ⟨h1, h2, h3, h4, h5, h6, h7, h8, h9, h10, h11, h12⟩
  · rintro ⟨⟨htail, happart⟩, hguard⟩
    refine ⟨htail, happart, fun hg => ?_⟩
    obtain ⟨h1, h2, h3, h4, h5, h6, h7, h8, h9, h10, h11, h12⟩ := hguard hg
    exact ⟨h1, h2, h3, h4, h5, h6, h7, h8, h9, h10, h11, h12⟩

/-- The fields of the ring stay, and no entry of the list has passed its check that had not. -/
structure ImageWriter.ringStays (w w' : ImageWriter) : Prop where
  head : w'.head = w.head
  ring : w'.ringTail = w.ringTail
  checked : w'.checkedTail = w.checkedTail
  unread : w'.unread = w.unread
  passed : ∀ e ∈ w'.workList, e.passed = true → ∃ e' ∈ w.workList, e'.passed = true

theorem ImageWriter.ringStays_refl (w : ImageWriter) : w.ringStays w := ⟨rfl, rfl, rfl, rfl, fun e he hp => ⟨e, he, hp⟩⟩

theorem ImageWriter.ringStays_took {w w' : ImageWriter} (h : w.took w') (hl : Grows w.workList w'.workList) :
    w.ringStays w' :=
  ⟨by rw [h], by rw [h], by rw [h], by rw [h], fun e he hp => ⟨e, hl.passed he hp, hp⟩⟩

/-- The access in flight stays, or one that moves nothing in the ring has completed. -/
def State.flightStays (s t : State) : Prop :=
  t.inFlight = s.inFlight ∨ t.inFlight = none ∧ ∀ o, s.flightOwner = some o → o.movesRing = false

theorem State.flightStays.headsFlying {s t : State} (h : s.flightStays t) : t.headsFlying = s.headsFlying := by
  unfold State.headsFlying
  rcases h with heq | ⟨hnone, hmoves⟩
  · rw [State.flightOwner_congr heq]
  · rw [State.flightOwner_of_free hnone]
    cases ho : s.flightOwner with
    | none => rfl
    | some o =>
      cases o with
      | recordHead cls => exact nomatch hmoves _ ho
      | _ => rfl

theorem State.flightStays.tail {s t : State} (h : s.flightStays t) :
    (t.flightOwner = some (.port .tail) → s.flightOwner = some (.port .tail) ∧ t.flightData = s.flightData)
      ∧ (s.flightOwner = some (.port .tail) → t.flightOwner = some (.port .tail)) := by
  rcases h with heq | ⟨hnone, hmoves⟩
  · have data : t.flightData = s.flightData := by unfold State.flightData; rw [heq]
    rw [State.flightOwner_congr heq]
    exact ⟨fun ho => ⟨ho, data⟩, id⟩
  · rw [State.flightOwner_of_free hnone]
    exact ⟨nofun, fun ho => nomatch hmoves _ ho⟩

/-- What no part of the ring's own touches, keeps the law of the ring. -/
theorem State.ringHeld.stays {s t : State} (h : s.ringHeld) (hcopy : t.copy = s.copy) (hw : s.writer.ringStays t.writer)
    (hf : s.flightStays t) (hdisp : t.control.disposed = some .tail ↔ s.control.disposed = some .tail)
    (hbuf : s.control.disposed = some .tail → ∀ w rest, s.control.buffer = w :: rest → ∃ rest', t.control.buffer = w :: rest')
    (hscan : t.scanner.disposed ≠ some .tail) : t.ringHeld := by
  have distance : ∀ x, t.distance x = s.distance x := fun x => by unfold State.distance; rw [hcopy, hw.ring]
  obtain ⟨htail, hback⟩ := hf.tail
  refine ⟨?_, ?_, ?_, ?_, ?_, ?_, hscan, fun ho => ?_, fun hd => ?_, fun hd ho => ?_, fun hd ho => ?_, fun e he hp => ?_⟩
  · rw [hw.head, hcopy]; exact h.head_lt
  · rw [hw.ring, hcopy]; exact h.ring_lt
  · rw [hw.checked, hcopy]; exact h.checked_lt
  · rw [hw.unread, hf.headsFlying, distance, hw.head]; exact h.unread
  · rw [hw.unread, hcopy]; exact h.room
  · rw [distance, distance, hw.checked, hw.head]; exact h.checked
  · obtain ⟨ho', hdata⟩ := htail ho
    rw [distance, distance, hdata, hcopy, hw.checked]
    exact h.flying ho'
  · obtain ⟨w, rest, hb, hdata⟩ := h.waiting (hdisp.mp hd)
    obtain ⟨rest', hb'⟩ := hbuf (hdisp.mp hd) w rest hb
    exact ⟨w, rest', hb', by rw [hdata, hw.checked]⟩
  · obtain ⟨ho', hdata⟩ := htail ho
    rw [hdata, hw.checked]
    exact h.flown (fun hd' => hd (hdisp.mpr hd')) ho'
  · rw [hw.checked, hw.ring]
    exact h.level (fun hd' => hd (hdisp.mpr hd')) fun ho' => ho (hback ho')
  · obtain ⟨e', he', hp'⟩ := hw.passed e he hp
    rw [distance, hw.head, hcopy]
    exact h.free e' he' hp'

/-- The ports stay as they are. -/
theorem State.ringHeld.stays_ports {s t : State} (h : s.ringHeld) (hcopy : t.copy = s.copy)
    (hw : s.writer.ringStays t.writer) (hf : s.flightStays t) (hc : t.control = s.control) (hsc : t.scanner = s.scanner) :
    t.ringHeld :=
  h.stays hcopy hw hf (by rw [hc]) (fun _ w rest hb => ⟨rest, by rw [hc]; exact hb⟩) (by rw [hsc]; exact h.scanner)

/-! ### The parts that move no station -/

theorem Aside.ringHeld {s t : State} (h : Aside s t) (hg : s.part = .guard) (hs : s.ringHeld) : t.ringHeld := by
  cases h with
  | quiet h =>
    have hf : s.flightStays t := h.flight.imp id fun hf => ⟨hf.1, hf.2 hg⟩
    have hw : t.writer = s.writer := by rw [h.frame]
    exact hs.stays_ports (by rw [h.frame]) (by rw [hw]; exact s.writer.ringStays_refl) hf (by rw [h.frame])
      (by rw [h.frame])
  | hand r =>
    exact hs.stays_ports rfl (ImageWriter.ringStays_took (s.writer.took_hand r) (Grows.hand _ r)) (.inl rfl) rfl rfl
  | reply w =>
    exact hs.stays_ports rfl (ImageWriter.ringStays_took (s.writer.took_append _) (.one _ rfl)) (.inl rfl) rfl rfl
  | port p x hd hb =>
    cases p with
    | scanner =>
      refine hs.stays rfl s.writer.ringStays_refl (.inl rfl) Iff.rfl (fun _ w rest hb => ⟨rest, hb⟩) ?_
      show x.disposed ≠ _
      rw [hd]
      exact hs.scanner
    | control =>
      refine hs.stays rfl s.writer.ringStays_refl (.inl rfl) ?_ (fun _ w rest hbuf => ?_) hs.scanner
      · show x.disposed = _ ↔ _
        rw [hd]
        rfl
      · rcases hb with heq | ⟨-, y, heq⟩
        · exact ⟨rest, heq.trans hbuf⟩
        · exact ⟨rest ++ [y], by
            show x.buffer = _
            rw [heq]
            change s.control.buffer ++ [y] = _
            rw [hbuf]
            rfl⟩
  | pop p w rest _ hb hd =>
    cases p with
    | scanner => exact hs.stays rfl s.writer.ringStays_refl (.inl rfl) Iff.rfl (fun _ w rest hb => ⟨rest, hb⟩) hs.scanner
    | control =>
      refine hs.stays rfl s.writer.ringStays_refl (.inl rfl) Iff.rfl (fun htail => ?_) hs.scanner
      rw [show s.control.disposed = none from hd] at htail
      cases htail
  | _ => exact hs.stays_ports rfl s.writer.ringStays_refl (.inl rfl) rfl rfl

/-! ### A tail write is let in (R191) -/

theorem fullOr_pass {w : PortWrite} {d : Disposition} {k : PassKind} (h : fullOr w d = .pass k) : d = .pass k := by
  unfold fullOr at h
  split at h
  · exact h
  · cases h

theorem guardedDisposition_ne_tail (x : Window) (p : Port) : guardedDisposition x p ≠ .pass .tail := by
  intro h
  unfold guardedDisposition at h
  cases p <;> dsimp only at h <;> split at h <;> cases h

/-- Only the control port's write to the tail word passes as a tail write, and with a tail in range. -/
theorem State.tail_of_disposition {s : State} {p : Port} {w : PortWrite} (hg : s.part = .guard)
    (h : s.disposition p w = .pass .tail) : p = .control ∧ s.tailInRange w.data.toNat = true := by
  rw [State.disposition, if_pos hg] at h
  unfold State.guardDisposition at h
  split at h
  · cases h
  · split at h
    · cases h
    · next x _ =>
      unfold State.windowDisposition at h
      split at h
      · cases h
      · next k _ =>
        refine ⟨rfl, ?_⟩
        cases k with
        | command =>
          have h := fullOr_pass (show fullOr w _ = _ from h)
          split at h
          · dsimp only at h
            split at h
            · cases h
            · split at h
              · cases h
              · split at h <;> cases h
          · cases h
        | mailbox =>
          change mailboxDisposition w _ = _ at h
          unfold mailboxDisposition at h
          split at h
          · exact nomatch fullOr_pass h
          · split at h
            · exact nomatch fullOr_pass h
            · split at h <;> cases h
        | report =>
          change s.reportDisposition w _ = _ at h
          unfold State.reportDisposition at h
          split at h
          · have h := fullOr_pass h
            split at h
            · next hrange => exact hrange
            · cases h
          · cases h
        | guarded => exact absurd h (guardedDisposition_ne_tail x .control)
        | feedback => cases h
        | snapshot => cases h
      · next k _ =>
        cases k with
        | feedback =>
          have h := fullOr_pass (show fullOr w _ = _ from h)
          split at h <;> cases h
        | guarded => exact absurd h (guardedDisposition_ne_tail x .scanner)
        | command => cases h
        | mailbox => cases h
        | report => cases h
        | snapshot => cases h

end Sys2Proof.Machine
end

section
/-! PROOF. The parts that act on the ring (O52): passing tails, grants, head and tail completions, checks of entries. -/

namespace Sys2Proof.Machine

open Sys2Proof

/-! ### The checks of entries (R190, R192) -/

/-- A record dropped at its turn leaves, and its count may join. -/
theorem Grows.dropHead (w : ImageWriter) : Grows w.workList.tail w.dropHead.workList :=
  Grows.placeOnce { w.leave with buffer := w.buffer.tail, dropped := min 65535 (w.dropped + 1) } (e := .droppedCount) rfl

/-- The list after a check: what was behind the head stands there, or one more entry that has not passed. -/
theorem State.tail_recordDue {s : State} (h : ∀ e ∈ s.writer.workList.tail, e.passed = false) :
    ∀ e ∈ s.recordDue.writer.workList.tail, e.passed = false := by
  unfold State.recordDue
  split
  · next rest hl =>
    split
    · obtain ⟨m, heq, hm⟩ := Grows.dropHead s.writer
      intro e he
      have he : e ∈ (s.writer.workList.tail ++ m).tail := heq ▸ he
      exact passed_tail_append (fun x hx => h x (List.mem_of_mem_tail hx)) hm e he
    · rw [hl] at h
      exact h
  · exact h

theorem State.tail_overflowTurn {s : State} (h : ∀ e ∈ s.writer.workList.tail, e.passed = false) :
    ∀ e ∈ s.overflowTurn.writer.workList.tail, e.passed = false := by
  unfold State.overflowTurn
  split
  · next rest hl =>
    rw [hl] at h
    split
    · intro e he
      have he : e ∈ s.writer.leave.workList.tail := he
      rw [ImageWriter.workList_leave hl] at he
      exact h e (List.mem_of_mem_tail he)
    · have grows := Grows.placeOnce { s.writer with
        workList := .overflow (some (overflowRecord s)) :: rest, dropped := 0 } (e := .droppedCount) rfl
      obtain ⟨m, heq, hm⟩ := grows
      intro e he
      have he : e ∈ (WorkEntry.overflow (some (overflowRecord s)) :: rest ++ m).tail := heq ▸ he
      exact passed_tail_append h hm e he
  · exact h

/-- An entry passes its check only while the ring has a free slot. -/
theorem State.passed_recordDue {s : State} {e : WorkEntry} (he : e ∈ s.recordDue.writer.workList) (hp : e.passed = true) : e ∈ s.writer.workList ∨ s.ringFull = false := by
  unfold State.recordDue at he
  split at he
  · next rest hl =>
    split at he
    · exact .inl (List.mem_of_mem_tail ((Grows.dropHead s.writer).passed he hp))
    · next hfull => exact .inr (by simpa using hfull)
  · exact .inl he

theorem State.passed_overflowTurn {s : State} {e : WorkEntry} (he : e ∈ s.overflowTurn.writer.workList) :
    e ∈ s.writer.workList ∨ e.passed = false ∨ s.ringFull = false := by
  unfold State.overflowTurn at he
  split at he
  · next rest hl =>
    split at he
    · have hin : e ∈ s.writer.leave.workList := he
      rw [ImageWriter.workList_leave hl] at hin
      rw [hl]
      exact .inl (List.mem_cons_of_mem _ hin)
    · next hfull => exact .inr (.inr (by simpa using hfull))
  · exact .inl he

theorem State.free_of_not_full {s : State} (hs : s.ringHeld) (h : s.ringFull = false) :
    s.distance s.writer.head < Setup.capacity s.copy - 1 := by
  unfold State.ringFull at h
  rw [ringDiff_eq hs.ring_lt, beq_eq_false_iff_ne] at h
  have := fromTail_lt (x := s.writer.head) hs.ring_lt
  have ring := hs.ring_lt
  unfold State.distance
  omega

/-- The law of the ring, when the checks of entries alone act on the writer. -/
theorem State.ringHeld.check {s t : State} (hs : s.ringHeld) (ht : t = { s with writer := t.writer })
    (hw : t.writer = { s.writer with
      workList := t.writer.workList, progress := t.writer.progress, buffer := t.writer.buffer, dropped := t.writer.dropped })
    (hfree : ∀ e ∈ t.writer.workList, e.passed = true → e ∈ s.writer.workList ∨ s.ringFull = false) : t.ringHeld := by
  have free : ∀ e ∈ t.writer.workList, e.passed = true → s.distance s.writer.head < Setup.capacity s.copy - 1 :=
    fun e he hp => (hfree e he hp).elim (fun hin => hs.free e hin hp) (State.free_of_not_full hs)
  generalize t.writer = w at ht hw free
  subst ht
  rw [hw]
  obtain ⟨h1, h2, h3, h4, h5, h6, h7, h8, h9, h10, h11, -⟩ := hs
  exact ⟨h1, h2, h3, h4, h5, h6, h7, h8, h9, h10, h11, free⟩

/-! ### A write passes (R164, R191) -/

theorem State.ringHeld.pass {s : State} (hs : s.ringHeld) (hg : s.part = .guard) {p : Port} {w : PortWrite}
    {rest : List PortWrite} {k : PassKind} (hb : (s.port p).buffer = w :: rest) (hd : (s.port p).disposed = none)
    (hk : s.disposition p w = .pass k) : (s.disposed p w rest (.pass k)).ringHeld := by
  by_cases htail : k = .tail
  · subst htail
    obtain ⟨rfl, hrange⟩ := State.tail_of_disposition hg hk
    have notail : s.control.disposed ≠ some .tail := fun h => by
      rw [show s.control.disposed = none from hd] at h
      cases h
    unfold State.tailInRange at hrange
    simp only [Bool.and_eq_true, decide_eq_true_eq] at hrange
    obtain ⟨ht, hrange⟩ := hrange
    rw [ringDiff_eq hs.checked_lt, ringDiff_eq hs.checked_lt] at hrange
    obtain ⟨hlow, hhigh⟩ := fromTail_between hs.ring_lt hs.checked_lt hs.head_lt ht hs.checked hrange
    have flown := hs.flown notail
    obtain ⟨h1, h2, h3, h4, h5, h6, h7, h8, h9, h10, h11, h12⟩ := hs
    refine ⟨h1, h2, ht, h4, h5, hhigh, h7, fun ho => ?_, fun _ => ⟨w, rest, hb, rfl⟩, fun h => absurd rfl h,
      fun h => absurd rfl h, h12⟩
    obtain ⟨hlt, hle⟩ := h8 ho
    exact ⟨hlt, hle.trans hlow⟩
  · have same : s.writer.checkTail k w.data.toNat = s.writer := if_neg htail
    have hw : s.writer.ringStays (s.disposed p w rest (.pass k)).writer := by
      show s.writer.ringStays (s.writer.checkTail k w.data.toNat)
      rw [same]
      exact s.writer.ringStays_refl
    have hne : some k ≠ some PassKind.tail := fun h => htail (Option.some.inj h)
    cases p with
    | scanner => exact hs.stays rfl hw (.inl rfl) Iff.rfl (fun _ w rest hb => ⟨rest, hb⟩) hne
    | control =>
      have notail : s.control.disposed ≠ some .tail := fun h => by
        rw [show s.control.disposed = none from hd] at h
        cases h
      exact hs.stays rfl hw (.inl rfl) ⟨fun h => absurd h hne, fun h => absurd h notail⟩
        (fun h => absurd h notail) hs.scanner

/-! ### Grants of the memory port -/

/-- With the port free, no tail write is in flight. -/
theorem State.ringHeld.level_of_free {s : State} (hs : s.ringHeld) (hf : s.inFlight = none)
    (hd : s.control.disposed ≠ some .tail) : s.writer.checkedTail = s.writer.ringTail :=
  hs.level hd (by rw [State.flightOwner_of_free hf]; nofun)

theorem State.headsFlying_of_free {s : State} (hf : s.inFlight = none) : s.headsFlying = 0 := by
  unfold State.headsFlying
  rw [State.flightOwner_of_free hf]

/-- An access granted that moves nothing in the ring. -/
theorem State.ringHeld.granted_still {s t : State} (hs : s.ringHeld) (hf : s.inFlight = none) (hcopy : t.copy = s.copy)
    (hw : s.writer.ringStays t.writer) (hc : t.control = s.control) (hsc : t.scanner = s.scanner)
    (ho : ∀ o, t.flightOwner = some o → o.movesRing = false) : t.ringHeld := by
  have flying : t.headsFlying = 0 := by
    unfold State.headsFlying
    split
    · next heq => exact nomatch ho _ heq
    · rfl
  have unread := hs.unread
  rw [State.headsFlying_of_free hf] at unread
  have notail : t.flightOwner ≠ some (.port .tail) := fun h => nomatch ho _ h
  have distance : ∀ x, t.distance x = s.distance x := fun x => by unfold State.distance; rw [hcopy, hw.ring]
  refine ⟨?_, ?_, ?_, ?_, ?_, ?_, by rw [hsc]; exact hs.scanner, fun h => absurd h notail, fun hd => ?_,
    fun _ h => absurd h notail, fun hd _ => ?_, fun e he hp => ?_⟩
  · rw [hw.head, hcopy]; exact hs.head_lt
  · rw [hw.ring, hcopy]; exact hs.ring_lt
  · rw [hw.checked, hcopy]; exact hs.checked_lt
  · rw [hw.unread, flying, distance, hw.head]; exact unread
  · rw [hw.unread, hcopy]; exact hs.room
  · rw [distance, distance, hw.checked, hw.head]; exact hs.checked
  · rw [hc] at hd ⊢
    rw [hw.checked]
    exact hs.waiting hd
  · rw [hc] at hd
    rw [hw.checked, hw.ring]
    exact hs.level_of_free hf hd
  · obtain ⟨e', he', hp'⟩ := hw.passed e he hp
    rw [distance, hw.head, hcopy]
    exact hs.free e' he' hp'

/-- The ring's fields stay when the head entry leaves. -/
theorem State.headPasses.ringStays {s : State} (h : s.headPasses) {w : ImageWriter} (hhead : w.head = s.writer.head)
    (hring : w.ringTail = s.writer.ringTail) (hchecked : w.checkedTail = s.writer.checkedTail)
    (hunread : w.unread = s.writer.unread) (hl : w.workList = s.writer.workList.tail) : s.writer.ringStays w :=
  ⟨hhead, hring, hchecked, hunread, fun e he hp => by
    rw [h.tail e (hl ▸ he)] at hp
    cases hp⟩

theorem Granted.ringHeld {s t : State} (h : Granted s t) (hf : s.inFlight = none) (hpass : s.headPasses)
    (hs : s.ringHeld) : t.ringHeld := by
  have left : s.writer.ringStays s.writer.leave := hpass.ringStays rfl rfl rfl rfl rfl
  have plain : ∀ {o : Owner}, o.movesRing = false → ∀ o', some o = some o' → o'.movesRing = false :=
    fun ho o' h => Option.some.inj h ▸ ho
  cases h with
  | write p w rest k hb hd =>
    cases p with
    | scanner =>
      have hk : k ≠ .tail := fun h => hs.scanner (by rw [show s.scanner.disposed = some k from hd, h])
      let flight : Flight := { requester := .scanner, transfer := .write (writeAt w) w.data w.enables, owner := .port k }
      have ring := hs.granted_still (t := { s with inFlight := some flight }) hf rfl
        s.writer.ringStays_refl rfl rfl (plain (by cases k <;> [rfl; rfl; rfl; rfl; exact absurd rfl hk; rfl; rfl]))
      exact ring.stays rfl (ImageWriter.ringStays_refl _) (.inl rfl) Iff.rfl (fun _ w rest hb => ⟨rest, hb⟩) nofun
    | control =>
      by_cases hk : k = .tail
      · subst hk
        obtain ⟨w', rest', hb', hdata⟩ := hs.waiting hd
        have hww : w' = w := (List.cons.inj (hb'.symm.trans hb)).1
        subst hww
        have unread := hs.unread
        rw [State.headsFlying_of_free hf] at unread
        obtain ⟨h1, h2, h3, -, h5, h6, h7, -, -, -, -, h12⟩ := hs
        refine ⟨h1, h2, h3, unread, h5, h6, h7, fun _ => ?_, nofun, fun _ _ => hdata, fun _ h => absurd rfl h, h12⟩
        exact ⟨hdata.trans_lt h3, (congrArg s.distance hdata).le⟩
      · have notail : s.control.disposed ≠ some .tail := fun h => hk (Option.some.inj (hd.symm.trans h))
        let flight : Flight := { requester := .control, transfer := .write (writeAt w) w.data w.enables, owner := .port k }
        have ring := hs.granted_still (t := { s with inFlight := some flight }) hf rfl
          s.writer.ringStays_refl rfl rfl (plain (by cases k <;> [rfl; rfl; rfl; rfl; exact absurd rfl hk; rfl; rfl]))
        exact ring.stays rfl (ImageWriter.ringStays_refl _) (.inl rfl) ⟨nofun, fun h => absurd h notail⟩
          (fun h => absurd h notail) hs.scanner
  | read p a => exact hs.granted_still hf rfl s.writer.ringStays_refl rfl rfl (plain rfl)
  | idle => exact hs
  | readIn n a rest => exact hs.granted_still hf rfl s.writer.ringStays_refl rfl rfl (plain rfl)
  | station n rest hl => exact hs.granted_still hf rfl left rfl rfl (plain rfl)
  | word e rest a d last hl he =>
    exact hs.granted_still hf rfl left rfl rfl (plain (by cases last <;> rfl))
  | lane a d => exact hs.granted_still hf rfl ⟨rfl, rfl, rfl, rfl, fun e he hp => ⟨e, he, hp⟩⟩ rfl rfl (plain rfl)
  | snapshotEnd rest a d hl => exact hs.granted_still hf rfl left rfl rfl (plain rfl)
  | head e rest l cls a d hl he =>
    have free := hs.free e (by rw [hl]; exact List.mem_cons_self) he
    obtain ⟨hnext, hstep⟩ := fromTail_nextSlot hs.ring_lt hs.head_lt free
    have unread := hs.unread
    rw [State.headsFlying_of_free hf] at unread
    have level := hs.level_of_free hf
    obtain ⟨h1, h2, h3, -, h5, h6, h7, -, h9, -, -, -⟩ := hs
    refine ⟨hnext, h2, h3, ?_, h5, ?_, h7, nofun, h9, nofun, fun hd _ => level hd, fun x hx hp => ?_⟩
    · refine Eq.trans ?_ hstep.symm
      exact congrArg (· + 1) unread
    · exact h6.trans ((Nat.le_succ _).trans_eq hstep.symm)
    · change x ∈ s.writer.workList.tail at hx
      rw [hpass.tail x hx] at hp
      cases hp

/-! ### Completions (R190, R191) -/

theorem State.ringHeld.recordHead {s : State} (hs : s.ringHeld) {cls : RecordClass}
    (ho : s.flightOwner = some (.recordHead cls)) : (s.finish.recordRead cls).ringHeld := by
  have free := State.flightOwner_of_free s.finish_inFlight
  have owner : (s.finish.recordRead cls).flightOwner = none := free
  have flying : s.headsFlying = 1 := by unfold State.headsFlying; rw [ho]
  have none : (s.finish.recordRead cls).headsFlying = 0 := by unfold State.headsFlying; rw [owner]
  have unread := hs.unread
  rw [flying] at unread
  have dlt := fromTail_lt (x := s.writer.head) hs.ring_lt
  have distance : ∀ x, (s.finish.recordRead cls).distance x = s.distance x := fun x => by
    show fromTail (Setup.capacity s.finish.copy) s.finish.writer.ringTail x = _
    rw [s.finish_copy, s.finish_writer]
    rfl
  have level := hs.level
  rw [ho] at level
  obtain ⟨h1, h2, h3, -, h5, h6, h7, -, h9, -, -, h12⟩ := hs
  have hlen : (s.finish.recordRead cls).writer.unread.length = s.writer.unread.length + 1 := by
    show (s.finish.writer.unread ++ [cls]).length = _
    rw [s.finish_writer, List.length_append]
    rfl
  have hcopy : (s.finish.recordRead cls).copy = s.copy := s.finish_copy
  have hw : (s.finish.recordRead cls).writer.head = s.writer.head
      ∧ (s.finish.recordRead cls).writer.ringTail = s.writer.ringTail
      ∧ (s.finish.recordRead cls).writer.checkedTail = s.writer.checkedTail
      ∧ (s.finish.recordRead cls).writer.workList = s.writer.workList := by
    show s.finish.writer.head = _ ∧ s.finish.writer.ringTail = _ ∧ s.finish.writer.checkedTail = _
      ∧ s.finish.writer.workList = _
    rw [s.finish_writer]
    exact ⟨rfl, rfl, rfl, rfl⟩
  obtain ⟨whead, wring, wchecked, wlist⟩ := hw
  have hc : (s.finish.recordRead cls).control = s.control := s.finish_control
  have hsc : (s.finish.recordRead cls).scanner = s.scanner := s.finish_scanner
  unfold State.distance at unread
  refine ⟨?_, ?_, ?_, ?_, ?_, ?_, by rw [hsc]; exact h7, ?_, fun hd => ?_, ?_, fun hd _ => ?_, fun e he hp => ?_⟩
  · rw [whead, hcopy]; exact h1
  · rw [wring, hcopy]; exact h2
  · rw [wchecked, hcopy]; exact h3
  · rw [hlen, none, distance, whead]; exact unread
  · rw [hlen, hcopy]; omega
  · rw [distance, distance, wchecked, whead]; exact h6
  · rw [owner]; nofun
  · rw [hc] at hd ⊢
    rw [wchecked]
    exact h9 hd
  · rw [owner]; nofun
  · rw [hc] at hd
    rw [wchecked, wring]
    exact level hd nofun
  · rw [distance, whead, hcopy]
    exact h12 e (wlist ▸ he) hp

theorem State.ringHeld.tailMoved {s : State} (hs : s.ringHeld) (hpass : s.headPasses)
    (ho : s.flightOwner = some (.port .tail)) : (s.finish.tailMoved s.flightData.toNat).ringHeld := by
  have owner : (s.finish.tailMoved s.flightData.toNat).flightOwner = none := State.flightOwner_of_free s.finish_inFlight
  have none : (s.finish.tailMoved s.flightData.toNat).headsFlying = 0 := by unfold State.headsFlying; rw [owner]
  have flying : s.headsFlying = 0 := by unfold State.headsFlying; rw [ho]
  have unread := hs.unread
  rw [flying] at unread
  obtain ⟨ht, hle⟩ := hs.flying ho
  have flown := fun hd => hs.flown hd ho
  obtain ⟨h1, h2, h3, -, h5, h6, h7, -, h9, -, -, h12⟩ := hs
  have hcopy : (s.finish.tailMoved s.flightData.toNat).copy = s.copy := s.finish_copy
  have hw : (s.finish.tailMoved s.flightData.toNat).writer.head = s.writer.head
      ∧ (s.finish.tailMoved s.flightData.toNat).writer.ringTail = s.flightData.toNat
      ∧ (s.finish.tailMoved s.flightData.toNat).writer.checkedTail = s.writer.checkedTail := by
    show s.finish.writer.head = _ ∧ _ ∧ s.finish.writer.checkedTail = _
    rw [s.finish_writer]
    exact ⟨rfl, rfl, rfl⟩
  obtain ⟨whead, wring, wchecked⟩ := hw
  have hlen : (s.finish.tailMoved s.flightData.toNat).writer.unread.length
      = s.writer.unread.length - s.distance s.flightData.toNat := by
    show (s.finish.writer.unread.drop (s.finish.slotsFreed s.flightData.toNat)).length = _
    unfold State.slotsFreed
    rw [s.finish_writer, s.finish_copy, List.length_drop, ringDiff_eq h2]
    rfl
  have passed : ∀ e ∈ (s.finish.tailMoved s.flightData.toNat).writer.workList, e.passed = true → e ∈ s.writer.workList := by
    intro e he hp
    unfold State.tailMoved at he
    dsimp only at he
    rw [s.finish_writer] at he
    split at he
    · exact (passed_placeOverflow hpass.tail).2 e he hp
    · exact he
  have distance : ∀ x, x < Setup.capacity s.copy → s.distance s.flightData.toNat ≤ s.distance x →
      (s.finish.tailMoved s.flightData.toNat).distance x = s.distance x - s.distance s.flightData.toNat := by
    intro x hx hle
    unfold State.distance
    rw [hcopy, wring]
    exact fromTail_moved h2 ht hx hle
  have dhead := distance s.writer.head h1 (hle.trans h6)
  have dchecked := distance s.writer.checkedTail h3 hle
  have hc : (s.finish.tailMoved s.flightData.toNat).control = s.control := s.finish_control
  have hsc : (s.finish.tailMoved s.flightData.toNat).scanner = s.scanner := s.finish_scanner
  refine ⟨?_, ?_, ?_, ?_, ?_, ?_, by rw [hsc]; exact h7, ?_, fun hd => ?_, ?_, fun hd _ => ?_, fun e he hp => ?_⟩
  · rw [whead, hcopy]; exact h1
  · rw [wring, hcopy]; exact ht
  · rw [wchecked, hcopy]; exact h3
  · rw [hlen, none, whead, dhead]; omega
  · rw [hlen, hcopy]; omega
  · rw [wchecked, whead, dchecked, dhead]; omega
  · rw [owner]; nofun
  · rw [hc] at hd ⊢
    rw [wchecked]
    exact h9 hd
  · rw [owner]; nofun
  · rw [hc] at hd
    rw [wchecked, wring]
    exact (flown hd).symm
  · rw [whead, dhead, hcopy]
    exact (Nat.sub_le _ _).trans_lt (h12 e (passed e he hp) hp)

/-! ### Every act -/

theorem Setup.capacity_pos (c : Cells Word) : 0 < Setup.capacity c := by
  unfold Setup.capacity
  split
  · decide
  · split
    · decide
    · split
      · decide
      · split <;> decide

/-- At GUARD entry the ring is empty (R184). -/
theorem State.ringHeld_enterGuard {s : State} (hpass : s.headPasses) (hp : s.part ≠ .guard) (hf : s.inFlight = none) :
    s.enterGuard.ringHeld := by
  have owner : s.enterGuard.flightOwner = none := State.flightOwner_of_free hf
  have flying : s.enterGuard.headsFlying = 0 := State.headsFlying_of_free (s := s.enterGuard) hf
  have released : ∀ x : PortState, x.atEntry.disposed = none := fun x =>
    (PortState.release_buffer { x with disposed := none }).1
  have cap := Setup.capacity_pos s.copy
  refine ⟨cap, cap, cap, ?_, Nat.zero_le _, le_refl _, ?_, ?_, ?_, ?_, fun _ _ => rfl, fun e he hpassed => ?_⟩
  · rw [flying]
    show 0 = fromTail (Setup.capacity s.copy) 0 0
    unfold fromTail
    simp
  · show s.scanner.atEntry.disposed ≠ _
    rw [released]
    nofun
  · rw [owner]; nofun
  · show s.control.atEntry.disposed = _ → _
    rw [released]
    nofun
  · rw [owner]; nofun
  · have he : e ∈ s.writer.workList := he
    rw [hpass.apart hp e he] at hpassed
    cases hpassed

theorem Act.headPasses {s t : State} (h : Act s t) (hs : s.headPasses) : t.headPasses := by
  have inside : s.part = .guard → t.part = s.part → (∀ e ∈ t.writer.workList.tail, e.passed = false) → t.headPasses :=
    fun hg ht hl => ⟨hl, fun hne => absurd (ht.trans hg) hne⟩
  have same : s.finish.writer.workList = s.writer.workList := by rw [s.finish_writer]
  cases h with
  | claims hg h => exact hs.grows (Grows.joins h.joins) (.inr h.part)
  | pass p w rest k =>
    have list : (s.writer.checkTail k w.data.toNat).workList = s.writer.workList := by
      unfold ImageWriter.checkTail
      split <;> rfl
    exact hs.grows (t := s.disposed p w rest (.pass k)) (by
      show Grows _ (s.writer.checkTail k w.data.toNat).workList
      rw [list]
      exact .refl _) (.inr rfl)
  | @memoryGrant t r _ _ ht =>
    have part : t.part = s.part := by rw [State.grantTo_frame ht]
    rcases (State.granted ht).workList with heq | heq
    · exact hs.grows (by
        show Grows _ t.writer.workList
        rw [heq]
        exact .refl _) (.inr part)
    · exact (hs.leave (t := { t with arbiter := s.arbiterAfter r }) heq).1
  | tail hg =>
    refine inside hg s.finish_part ?_
    unfold State.tailMoved
    dsimp only
    split
    · exact (passed_placeOverflow (same ▸ hs.tail)).1
    · exact same ▸ hs.tail
  | recordHead _ hg => exact inside hg s.finish_part (same ▸ hs.tail)
  | snapshotDone hg => exact inside hg s.finish_part (same ▸ hs.tail)
  | recordDue hg => exact inside hg (by rw [s.recordDue_frame]) (State.tail_recordDue hs.tail)
  | overflow hg => exact inside hg (by rw [s.overflowTurn_frame]) (State.tail_overflowTurn hs.tail)
  | snapshotTaken x reply hg =>
    exact hs.grows ((Grows.one _ (e := .reply reply) rfl).trans (Grows.one _ (e := .snapshot) rfl)) (.inl hg)
  | closeFails code k => exact hs.grows (Grows.one _ rfl) (.inr rfl)
  | closeSucceeds d hp =>
    have grows : Grows s.writer.workList (s.writer.workList ++ .setupResult (resultWord .ok s.closeCount 0) :: enteringWrites s.copy) :=
      ⟨_, rfl, by simp [enteringWrites, WorkEntry.passed]⟩
    have none : ∀ e ∈ s.writer.workList, e.passed = false := hs.apart (by rw [hp]; nofun)
    have all : ∀ e ∈ s.closeSucceeds.writer.workList, e.passed = false := fun e he => by
      by_contra hpass
      have passed : e.passed = true := by simpa using hpass
      rw [none e (grows.passed he passed)] at passed
      cases passed
    exact ⟨fun e he => all e (List.mem_of_mem_tail he), fun _ => all⟩
  | readIn n w => exact hs.grows (Grows.placeOnce s.writer (e := .station n) rfl) (.inr rfl)
  | guardEntry => exact ⟨hs.tail, fun hne => absurd rfl hne⟩
  | reset => exact ⟨nofun, fun _ => nofun⟩
  | _ => exact ⟨hs.tail, hs.apart⟩

theorem Act.ringHeld {s t : State} (h : Act s t) (hpass : s.headPasses) (hs : s.part = .guard → s.ringHeld)
    (hg : t.part = .guard) : t.ringHeld := by
  have same : s.writer.ringStays s.finish.writer := by rw [s.finish_writer]; exact s.writer.ringStays_refl
  cases h with
  | stay => exact hs hg
  | claims hgs h =>
    have frame := h.claimsOnly.frame
    exact (hs hgs).stays_ports (by rw [frame]) (ImageWriter.ringStays_took h.claimsOnly.took (Grows.joins h.joins))
      (.inl (by rw [frame])) (by rw [frame]) (by rw [frame])
  | tick hgs => exact (hs hgs).stays_ports rfl s.writer.ringStays_refl (.inl rfl) rfl rfl
  | pass p w rest k hb hd hk => exact (hs hg).pass hg hb hd hk
  | @memoryGrant t r hf _ ht =>
    have part : t.part = s.part := by rw [State.grantTo_frame ht]
    have ring := (State.granted ht).ringHeld hf hpass (hs (part ▸ hg))
    exact ring.stays_ports rfl t.writer.ringStays_refl (.inl rfl) rfl rfl
  | tail hgs ho => exact (hs hgs).tailMoved hpass ho
  | recordHead cls hgs ho => exact (hs hgs).recordHead ho
  | recordDue hgs =>
    exact (hs hgs).check s.recordDue_frame s.recordDue_writer fun e he hp => State.passed_recordDue he hp
  | overflow hgs =>
    refine (hs hgs).check s.overflowTurn_frame (by rw [s.overflowTurn_writer]) fun e he hp => ?_
    rcases State.passed_overflowTurn he with h | h | h
    · exact .inl h
    · rw [h] at hp; cases hp
    · exact .inr h
  | snapshotDone hgs ho =>
    have hflight : s.flightStays s.finish := .inr ⟨s.finish_inFlight, fun o h => by rw [ho] at h; cases h; rfl⟩
    have ring := (hs hgs).stays_ports s.finish_copy same hflight s.finish_control s.finish_scanner
    exact ring.stays_ports rfl ⟨rfl, rfl, rfl, rfl, fun e he hp => ⟨e, he, hp⟩⟩ (.inl rfl) rfl rfl
  | snapshotTaken x reply hgs =>
    have grows : Grows s.writer.workList (s.snapshotTaken x reply).writer.workList :=
      (Grows.one _ (e := .reply reply) rfl).trans (Grows.one _ (e := .snapshot) rfl)
    exact (hs hgs).stays_ports rfl ⟨rfl, rfl, rfl, rfl, fun e he hp => ⟨e, grows.passed he hp, hp⟩⟩ (.inl rfl) rfl rfl
  | copied c hp => exact absurd (hp.symm.trans hg) nofun
  | closeFails code k hp => exact absurd (hp.symm.trans hg) nofun
  | closeSucceeds => cases hg
  | readIn n w hp => exact absurd (hp.symm.trans hg) nofun
  | guardEntry hp hf => exact State.ringHeld_enterGuard hpass (by rw [hp]; nofun) hf
  | reset => cases hg

/-- Settles O52: memory and copy are written through their own operations, ports and record buffer check their room, and
each act's moves of head and tails stay in their order. -/
theorem everyStepKeepsFormAndBounds : Obligations.EveryStepKeepsFormAndBounds := by
  refine ⟨fun s t hs hstep => ?_, fun s t hs hstep => ?_, fun s t hs hstep => ?_⟩
  · exact step_keeps (P := State.canonical) (fun _ _ h => h) (fun h hs => h.canonical hs) (fun h hs => h.canonical hs)
      hstep hs
  · obtain ⟨hc, hsc, hw⟩ := s.bounded_iff.mp hs
    obtain ⟨ports, within⟩ := step_keeps (P := fun u => u.portsWithin ∧ u.writer.within) (fun _ _ h => h)
      (fun h hs => ⟨h.portsWithin hs.1, h.within hs.2⟩) (fun h hs => ⟨h.portsWithin hs.1, h.within hs.2⟩) hstep
      ⟨s.portsWithin_iff.mpr ⟨hc, hsc⟩, hw⟩
    obtain ⟨hc', hsc'⟩ := t.portsWithin_iff.mp ports
    exact t.bounded_iff.mpr ⟨hc', hsc', within⟩
  · refine t.ringLaw_iff.mpr (step_keeps (P := fun u => u.headPasses ∧ (u.part = .guard → u.ringHeld)) (fun _ _ h => ?_)
      (fun h hs => ?_) (fun h hs => ⟨h.headPasses hs.1, h.ringHeld hs.1 hs.2⟩) hstep (s.ringLaw_iff.mp hs))
    · exact ⟨⟨h.1.tail, h.1.apart⟩, fun hg => (h.2 hg).stays_ports rfl (ImageWriter.ringStays_refl _) (.inl rfl) rfl rfl⟩
    · exact ⟨hs.1.grows h.grows (.inr h.part), fun hg => h.ringHeld (h.part ▸ hg) (hs.2 (h.part ▸ hg))⟩

end Sys2Proof.Machine
end

section
/-! PROOF. The reversal discipline fails (O56): the law of locks is no premise of it, and a station in DWELL with a lock
cause, taken out of its lock, begins its dwell afresh. -/

namespace Sys2Proof.Machine

open Sys2Proof

/-- A station in DWELL, three tenths before its end, with the OPERATOR cause set and its fan observed STOPPED. -/
def Station.dwellLocked : Station :=
  { Station.reset with
    state := .dwell
    timer := some 3
    observed := some { drive := .stopped, dir := .fwd, speed := none, trip := false, localSwitch := false }
    locks := { operator := true, localSwitch := false } }

/-- GUARD with station 0, the only one present, in DWELL with a lock cause, and the LOCK request that takes the cause
away in flight. -/
def State.dwellLocked : State :=
  { State.reset with
    pending := [.lock]
    part := .guard
    copy := [(256, 1)]
    inFlight := some
      { requester := .control, transfer := .write 0 (BitVec.ofNat 32 kindLock) allLanes, owner := .port .request }
    stations := Table.put (Vector.replicate 64 Station.reset) 0 Station.dwellLocked }

theorem State.station_dwellLocked (n : StationNo) :
    State.dwellLocked.station n = if n = 0 then Station.dwellLocked else Station.reset := by
  by_cases h : n = 0
  · subst h
    exact Table.nth_put_self _ _ _
  · rw [if_neg h]
    exact (Table.nth_put_ne _ _ h).trans (Table.nth_replicate _ _)

theorem State.feeder_dwellLocked (f : FeederNo) : State.dwellLocked.feeder f = Feeder.reset := Table.nth_replicate _ _

theorem State.queueLaw_dwellLocked : State.dwellLocked.queueLaw := by
  refine State.queueLaw_of_queuesMatch ⟨fun f n => ?_, fun f => ?_⟩ rfl
  · rw [State.feeder_dwellLocked, State.station_dwellLocked]
    refine ⟨nofun, fun h => ?_⟩
    split at h <;> exact nomatch h.1
  · rw [State.feeder_dwellLocked]
    exact List.nodup_nil

theorem State.lifecycleLaw_dwellLocked : State.dwellLocked.lifecycleLaw := by
  refine ⟨fun n => ?_, fun f e he => ?_⟩
  · rw [State.station_dwellLocked]
    split
    · exact ⟨rfl, nofun⟩
    · exact ⟨rfl, rfl, rfl⟩
  · rw [State.feeder_dwellLocked] at he
    cases he

/-- The station after the request: in DWELL, its timer at the dwell time of its setup, which is 0. -/
theorem State.unlocked_dwellLocked :
    ∃ t, step State.dwellLocked = .next t ∧ t.part = .guard ∧ (t.station 0).state = .dwell
      ∧ (t.station 0).timer = some 0 := by
  refine ⟨_, rfl, ?_, ?_, ?_⟩ <;> decide

/-- Refutes O56: in GUARD, with the queue law and the lifecycle law, station 0 is in DWELL with its timer at 3 and a lock
cause, which the law of locks alone would rule out. The request that takes the cause away leads it to DWELL again, with
the dwell time 0: neither the timer it had, nor one tenth less. -/
theorem not_everyStepKeepsLocksAndTrips : ¬ Obligations.EveryStepKeepsLocksAndTrips := by
  rintro ⟨-, -, reverses⟩
  obtain ⟨t, hstep, hpart, hstate, htimer⟩ := State.unlocked_dwellLocked
  obtain ⟨-, -, -, dwell⟩ := reverses State.dwellLocked t rfl State.queueLaw_dwellLocked State.lifecycleLaw_dwellLocked
    hstep hpart 0
  have before : State.dwellLocked.station 0 = Station.dwellLocked := State.station_dwellLocked 0
  rw [before] at dwell
  rcases dwell rfl with ⟨-, htime⟩ | hstops | ⟨htime, -⟩
  · rw [htimer] at htime
    rcases htime with h | ⟨k, h, h'⟩
    · cases h
    · cases h
      cases h'
  · unfold Station.stops at hstops
    rw [hstate] at hstops
    rcases hstops with h | h | h <;> cases h
  · cases htime

end Sys2Proof.Machine
end

section
/-! PROOF. The law of the lifecycle, which every claim and every event of a station keeps (for O53): one station's
record and entry are judged at a time, the others stay. -/

namespace Sys2Proof.Machine

open Sys2Proof

/-! ### The law at one station -/

/-- A start queue entry is its station's (R24, R58). -/
structure Station.fits (d : Station) (e : QueueEntry) : Prop where
  target : e.target = d.requested
  cls : e.cls = d.entryClass
  start : e.kind = .start → d.effective.speed = .off
  raise : e.kind = .raise → d.effective = { dir := e.target.dir, speed := .low } ∧ e.target.speed = .high

/-- The law of the lifecycle at one station. -/
def State.lawfulAt (s : State) (n : StationNo) : Prop :=
  (s.station n).stateLaw ∧ ∀ f, ∀ e ∈ (s.feeder f).queue, e.station = n → (s.station n).fits e

theorem Station.entryClass_eq (d : Station) :
    d.entryClass = (match d.target with
      | none => .control
      | some x => .plan x.rank) := by
  unfold Station.entryClass
  cases d.target <;> rfl

theorem State.lifecycleLaw_iff (s : State) : s.lifecycleLaw ↔ ∀ n, s.lawfulAt n := by
  constructor
  · rintro ⟨hstate, hentry⟩ n
    refine ⟨hstate n, fun f e he hn => ?_⟩
    obtain ⟨htarget, hcls, hstart, hraise⟩ := hentry f e he
    subst hn
    exact ⟨htarget, hcls.trans (Station.entryClass_eq _).symm, hstart, hraise⟩
  · intro h
    refine ⟨fun n => (h n).1, fun f e he => ?_⟩
    obtain ⟨htarget, hcls, hstart, hraise⟩ := (h e.station).2 f e he rfl
    exact ⟨htarget, hcls.trans (Station.entryClass_eq _), hstart, hraise⟩

/-- Nothing but one station's record and entry changed. -/
def State.othersStay (s t : State) (n : StationNo) : Prop :=
  ∀ m, m ≠ n → t.station m = s.station m ∧ ∀ f, ∀ e ∈ (t.feeder f).queue, e.station = m → e ∈ (s.feeder f).queue

theorem State.othersStay_refl (s : State) (n : StationNo) : s.othersStay s n := fun _ _ => ⟨rfl, fun _ _ he _ => he⟩

theorem State.othersStay.trans {s t u : State} {n : StationNo} (h : s.othersStay t n) (h' : t.othersStay u n) :
    s.othersStay u n := by
  intro m hm
  obtain ⟨hs, he⟩ := h m hm
  obtain ⟨hs', he'⟩ := h' m hm
  exact ⟨hs'.trans hs, fun f e hin hn => he f e (he' f e hin hn) hn⟩

/-- The law at a station whose record and entries stay. -/
theorem State.lawfulAt_of_stays {s t : State} {m : StationNo} (h : s.lawfulAt m) (hst : t.station m = s.station m)
    (hq : ∀ f, ∀ e ∈ (t.feeder f).queue, e.station = m → e ∈ (s.feeder f).queue) : t.lawfulAt m := by
  obtain ⟨hstate, hentry⟩ := h
  unfold State.lawfulAt
  rw [hst]
  exact ⟨hstate, fun f e he hm => hentry f e (hq f e he hm) hm⟩

/-- A change of one station's that leaves it lawful keeps the law. -/
theorem State.lifecycleLaw_of_one {s t : State} {n : StationNo} (hs : s.lifecycleLaw) (hothers : s.othersStay t n)
    (hn : t.lawfulAt n) : t.lifecycleLaw := by
  rw [State.lifecycleLaw_iff] at *
  intro m
  by_cases hm : m = n
  · exact hm ▸ hn
  · obtain ⟨hst, hq⟩ := hothers m hm
    exact State.lawfulAt_of_stays (hs m) hst hq

/-! ### Reasoning rules: a record's change, a transition, a retarget, a grant -/

theorem State.othersStay_put (s : State) (n : StationNo) (d : Station) : s.othersStay (s.putStation n d) n :=
  fun _ hm => ⟨State.station_putStation_ne s d hm, fun _ _ he _ => he⟩

theorem State.othersStay_move (s : State) (n : StationNo) (d : Station) (l : List ReportRecord) :
    s.othersStay (s.moveStation n d l) n := by
  intro m hm
  refine ⟨State.station_moveStation_ne s d l hm, fun f e he hem => ?_⟩
  by_cases hf : f = s.feederNo n
  · subst hf
    rw [State.feeder_moveStation_self, feederAfterMove_queue] at he
    split at he
    · rcases (mem_queueInsert _ e _).mp he with rfl | he
      · exact absurd hem.symm hm
      · exact (s.queueLeft_sublist n).subset he
    · exact (s.queueLeft_sublist n).subset he
  · rw [State.feeder_moveStation_ne s d l hf] at he
    exact he

theorem State.othersStay_retarget {s : State} (hq : s.queuesMatch) (n : StationNo) : s.othersStay (s.retarget n) n := by
  intro m hm
  refine ⟨rfl, fun f e he hem => ?_⟩
  by_cases hf : f = s.feederNo n
  · subst hf
    rw [s.feeder_retarget_self] at he
    rcases mem_queueRetarget (hq.2 _) he with ⟨he, -⟩ | ⟨y, -, hy, rfl⟩
    · exact he
    · exact absurd (hem.symm.trans hy) hm
  · rw [s.feeder_retarget_ne hf] at he
    exact he

theorem Station.stateLaw_flags {d : Station} (b c : Bool) :
    ({ d with writeBackPending := b, entered := c } : Station).stateLaw ↔ d.stateLaw := Iff.rfl

theorem Station.stateLaw_put {s : State} {n : StationNo} {d : Station} (h : d.stateLaw) :
    ((s.putStation n d).station n).stateLaw := by
  rw [State.station_putStation_self]
  split <;> exact h

theorem Station.fits_put {s : State} {n : StationNo} {d : Station} {e : QueueEntry} (h : d.fits e) :
    ((s.putStation n d).station n).fits e := by
  rw [State.station_putStation_self]
  split <;> exact ⟨h.target, h.cls, h.start, h.raise⟩

/-- A station out of QUEUED has no entry. -/
theorem State.queuesMatch.no_entry {s : State} (h : s.queuesMatch) {n : StationNo} (hn : (s.station n).state ≠ .queued)
    {f : FeederNo} {e : QueueEntry} (he : e ∈ (s.feeder f).queue) (hen : e.station = n) : False :=
  hn ((h.1 f n).mp (List.mem_map.mpr ⟨e, he, hen⟩)).1

/-- A record's change in a state other than QUEUED. -/
theorem State.lawfulAt_put {s : State} (hq : s.queuesMatch) {n : StationNo} {d : Station}
    (hn : (s.station n).state ≠ .queued) (hd : d.stateLaw) : (s.putStation n d).lawfulAt n :=
  ⟨Station.stateLaw_put hd, fun _ _ he hen => (hq.no_entry hn he hen).elim⟩

/-- What the entry a station asks for has to meet. -/
theorem Station.fits_queueEntryFor {s : State} {n : StationNo} {d : Station}
    (h : d.effective.speed ≠ .off →
      d.effective = { dir := d.requested.dir, speed := .low } ∧ d.requested.speed = .high) :
    d.fits (queueEntryFor s n d) := by
  refine ⟨rfl, rfl, fun hkind => ?_, fun hkind => h fun hoff => ?_⟩
  · by_contra hrun
    have running : isStop d.effective = false := by simpa [isStop] using hrun
    have : (queueEntryFor s n d).kind = .raise := by
      unfold queueEntryFor
      rw [running]
      rfl
    rw [this] at hkind
    cases hkind
  · have stands : isStop d.effective = true := by simpa [isStop] using hoff
    have : (queueEntryFor s n d).kind = .start := by
      unfold queueEntryFor
      rw [stands]
      rfl
    rw [this] at hkind
    cases hkind

theorem State.lawfulAt_move {s : State} (hq : s.queuesMatch) {n : StationNo} {d : Station} (l : List ReportRecord)
    (hd : d.stateLaw) (hfit : d.state = .queued → d.effective.speed ≠ .off →
      d.effective = { dir := d.requested.dir, speed := .low } ∧ d.requested.speed = .high) :
    (s.moveStation n d l).lawfulAt n := by
  have record : (s.moveStation n d l).station n = (s.enterState n d).station n := rfl
  unfold State.lawfulAt
  rw [record]
  refine ⟨Station.stateLaw_put (d := { d with entered := true }) hd, fun f e he hen => ?_⟩
  by_cases hf : f = s.feederNo n
  · subst hf
    rw [State.feeder_moveStation_self] at he
    rcases (hq.mem_moved n d e).mp he with ⟨hstate, rfl⟩ | ⟨-, hne⟩
    · have fits := Station.fits_queueEntryFor (s := s) (n := n) (hfit hstate)
      exact Station.fits_put (d := { d with entered := true }) ⟨fits.target, fits.cls, fits.start, fits.raise⟩
    · exact absurd hen hne
  · rw [State.feeder_moveStation_ne s d l hf] at he
    exact absurd ((hq.1 f n).mp (List.mem_map.mpr ⟨e, he, hen⟩)).2.symm hf

/-- A transition to another state than QUEUED. -/
theorem State.lawfulAt_leave {s : State} (hq : s.queuesMatch) {n : StationNo} {d : Station} (l : List ReportRecord)
    (hd : d.stateLaw) (hne : d.state ≠ .queued) : (s.moveStation n d l).lawfulAt n :=
  State.lawfulAt_move hq l hd fun h => absurd h hne

/-- A retarget of an entry that the station's new command fits. -/
theorem State.lawfulAt_retarget {s : State} (hq : s.queuesMatch) {n : StationNo} (hd : (s.station n).stateLaw)
    (hfit : ∀ f, ∀ e ∈ (s.feeder f).queue, e.station = n →
      (s.station n).fits { e with target := (s.station n).requested, cls := (s.station n).entryClass }) :
    (s.retarget n).lawfulAt n := by
  refine ⟨hd, fun f e he hen => ?_⟩
  show (s.station n).fits e
  by_cases hf : f = s.feederNo n
  · subst hf
    rw [s.feeder_retarget_self] at he
    rcases mem_queueRetarget (hq.2 _) he with ⟨-, hne⟩ | ⟨y, hy, hyn, rfl⟩
    · exact absurd hen hne
    · exact hfit _ y hy hyn
  · rw [s.feeder_retarget_ne hf] at he
    exact absurd ((hq.1 f n).mp (List.mem_map.mpr ⟨e, he, hen⟩)).2.symm hf

theorem State.lifecycleLaw_grant {s : State} (hq : s.queuesMatch) (hs : s.lifecycleLaw) (f : FeederNo) :
    (s.grant f).lifecycleLaw := by
  rcases s.grant_cases f with heq | ⟨e, rest, hqueue, -, heq⟩ <;> rw [heq]
  · exact hs
  obtain ⟨hstate, -, hnew⟩ := hq.head hqueue
  have he : e ∈ (s.feeder f).queue := by rw [hqueue]; exact List.mem_cons_self
  obtain ⟨hlaw, hfits⟩ := s.lifecycleLaw_iff.mp hs e.station
  have fits := hfits f e he rfl
  unfold Station.stateLaw at hlaw
  rw [hstate] at hlaw
  have subset : ∀ f', ∀ x ∈ ((s.grantEntry f e rest).feeder f').queue, x ∈ (s.feeder f').queue := by
    intro f' x hx
    by_cases hf : f' = f
    · subst hf
      rw [s.feeder_grantEntry_self] at hx
      rw [hqueue]
      exact List.mem_cons_of_mem _ hx
    · rwa [s.feeder_grantEntry_ne e rest hf] at hx
  refine State.lifecycleLaw_of_one (n := e.station) hs
    (fun m hm => ⟨s.station_grantEntry_ne f rest hm, fun f' x hx _ => subset f' x hx⟩) ⟨?_, fun f' x hx hxe => ?_⟩
  · refine Station.stateLaw_put (d := { (s.station e.station).toStarting e.target with entered := true }) ?_
    have running : e.target.speed ≠ .off := by rw [fits.target]; exact hlaw.1
    exact ⟨hlaw.1, running⟩
  · exact ((hq.grantEntry hqueue).no_entry (by rw [s.state_grantEntry_self]; nofun) hx hxe).elim

end Sys2Proof.Machine
end

section
/-! PROOF. Every claim and every event of a station keeps the law of the lifecycle (R24, R30-R49). -/

namespace Sys2Proof.Machine

open Sys2Proof

/-! ### Commands -/

theorem isStop_iff (c : FanCommand) : isStop c = true ↔ c.speed = .off := beq_iff_eq

theorem isStop_eq_false_iff (c : FanCommand) : isStop c = false ↔ c.speed ≠ .off := beq_eq_false_iff_ne

theorem dir_of_not_opposite {a b : FanCommand} (ha : a.speed ≠ .off) (hb : b.speed ≠ .off) (h : opposite a b = false) :
    a.dir = b.dir := by
  unfold opposite at h
  rw [(isStop_eq_false_iff a).mpr ha, (isStop_eq_false_iff b).mpr hb] at h
  simpa using h

/-- A speed step above one that runs is HIGH above LOW. -/
theorem speeds_of_above {a b : Speed} (h : speedAbove a b = true) (hb : b ≠ .off) : a = .high ∧ b = .low := by
  have order : speedCode b < speedCode a := of_decide_eq_true h
  cases a <;> cases b <;> simp_all [speedCode]

theorem speed_eq_of_not_above {a b : Speed} (h : speedAbove a b = false) (h' : speedAbove b a = false) : a = b := by
  have order : ¬speedCode b < speedCode a := of_decide_eq_false h
  have order' : ¬speedCode a < speedCode b := of_decide_eq_false h'
  cases a <;> cases b <;> simp_all [speedCode]

/-! ### What a state fixes beside the requested command, and of it -/

/-- Effective command and timer as the state fixes them (R24). -/
def Station.restLaw (d : Station) : Prop :=
  match d.state with
  | .off => d.effective.speed = .off ∧ d.timer = none
  | .queued => d.timer = none
  | .starting => d.effective.speed ≠ .off
  | .running => d.effective.speed ≠ .off ∧ d.timer = none
  | .stopping => d.effective.speed = .off
  | .dwell => d.effective.speed = .off ∧ d.timer ≠ none
  | .tripped => d.effective.speed = .off ∧ d.timer = none
  | .locked => d.effective.speed = .off ∧ d.timer = none

/-- The requested command as the state fixes it (R24). -/
def Station.commandLaw (d : Station) : Prop :=
  match d.state with
  | .off => d.requested.speed = .off
  | .queued => d.requested.speed ≠ .off
  | .starting => d.requested.speed ≠ .off
  | .running => d.requested = d.effective
  | .stopping => True
  | .dwell => True
  | .tripped => True
  | .locked => True

theorem Station.stateLaw_iff (d : Station) : d.stateLaw ↔ d.restLaw ∧ d.commandLaw := by
  unfold Station.stateLaw Station.restLaw Station.commandLaw
  cases d.state <;> simp <;> tauto

/-- Law for records that differ neither in state nor in effective command nor in timer. -/
theorem Station.restLaw_congr {d d' : Station} (h : d.restLaw) (hs : d'.state = d.state) (he : d'.effective = d.effective)
    (ht : d'.timer = d.timer) : d'.restLaw := by
  unfold Station.restLaw at *
  rw [hs, he, ht]
  exact h

theorem Station.stateLaw_toStopping (d : Station) : d.toStopping.stateLaw := by
  unfold Station.stateLaw Station.toStopping
  rfl

theorem Station.stateLaw_toDwell (d : Station) (k : Nat) : (d.toDwell k).stateLaw := ⟨rfl, nofun⟩

theorem Station.stateLaw_toTripped (d : Station) (c : TripCause) : (d.toTripped c).stateLaw := ⟨rfl, rfl⟩

theorem Station.stateLaw_toLocked (d : Station) : d.toLocked.stateLaw := ⟨rfl, rfl⟩

/-- A law said of the record given holds of the station's record after the change. -/
theorem State.queuesMatch.put {s : State} (h : s.queuesMatch) {n : StationNo} {d : Station}
    (hstate : d.state = (s.station n).state) : (s.putStation n d).queuesMatch := by
  refine State.still.queuesMatch (s := s) ⟨fun m => ?_, fun _ => rfl, fun _ => rfl, rfl, rfl, le_refl _⟩ h
  by_cases hm : m = n
  · subst hm
    rw [State.state_putStation_self, hstate]
  · rw [State.station_putStation_ne s d hm]

/-! ### Changes of request (R30, R32, R33, R39, R40) -/

theorem Station.requested_effective (d : Station) (c : FanCommand) :
    ({ d with effective := c } : Station).requested = d.requested := rfl

/-- A running station's way with a new request, whatever it asks for (R40). -/
theorem State.lawfulAt_runningChange {s : State} (hq : s.queuesMatch) {n : StationNo}
    (hstate : (s.station n).state = .running) (hrun : (s.station n).effective.speed ≠ .off)
    (htimer : (s.station n).timer = none) : (s.runningChange n).lawfulAt n := by
  have unqueued : (s.station n).state ≠ .queued := by rw [hstate]; nofun
  unfold State.runningChange
  dsimp only
  split
  · exact State.lawfulAt_leave hq _ (Station.stateLaw_toStopping _) nofun
  · next hgoes =>
    simp only [Bool.or_eq_true, not_or, Bool.not_eq_true] at hgoes
    obtain ⟨hstop, hopp⟩ := hgoes
    have asks := (isStop_eq_false_iff _).mp hstop
    have dir := dir_of_not_opposite asks hrun hopp
    split
    · refine State.lawfulAt_put hq unqueued ?_
      unfold Station.stateLaw
      rw [hstate]
      exact ⟨rfl, asks, htimer⟩
    · next hlower =>
      split
      · next hhigher =>
        obtain ⟨high, low⟩ := speeds_of_above hhigher hrun
        refine State.lawfulAt_move hq _ ⟨asks, rfl⟩ fun _ _ => ⟨?_, high⟩
        show (s.station n).effective = { dir := (s.station n).requested.dir, speed := .low }
        rw [dir, ← low]
      · next hhigher =>
        have speed := speed_eq_of_not_above (by simpa using hhigher) (by simpa using hlower)
        refine ⟨?_, fun _ _ he hen => (hq.no_entry unqueued he hen).elim⟩
        have same : (s.station n).requested = (s.station n).effective := by
          cases hr : (s.station n).requested
          cases he : (s.station n).effective
          rw [hr, he] at dir speed
          exact congrArg₂ FanCommand.mk dir speed
        unfold Station.stateLaw
        rw [hstate]
        exact ⟨same, hrun, htimer⟩

/-- What a station's entries say of the command it runs at (R33, R58). -/
def State.entriesRun (s : State) (n : StationNo) : Prop :=
  ∀ f, ∀ e ∈ (s.feeder f).queue, e.station = n →
    (e.kind = .start → (s.station n).effective.speed = .off) ∧ (e.kind = .raise → (s.station n).effective.speed = .low)

theorem State.lawfulAt.entriesRun {s : State} {n : StationNo} (h : s.lawfulAt n) : s.entriesRun n := by
  intro f e he hen
  have fits := h.2 f e he hen
  exact ⟨fits.start, fun hk => by rw [(fits.raise hk).1]⟩

/-- The station's entry in its feeder's queue while it is in QUEUED. -/
theorem State.queuesMatch.entry {s : State} (h : s.queuesMatch) {n : StationNo} (hn : (s.station n).state = .queued) :
    ∃ e ∈ (s.feeder (s.feederNo n)).queue, e.station = n ∧ s.entryKind n = e.kind := by
  obtain ⟨e, he, hen⟩ := List.mem_map.mp ((h.1 (s.feederNo n) n).mpr ⟨hn, rfl⟩)
  cases hfind : queueFind n (s.feeder (s.feederNo n)).queue with
  | none =>
    unfold queueFind at hfind
    have := List.find?_eq_none.mp hfind e he
    simp [hen] at this
  | some x =>
    obtain ⟨hx, hxn⟩ := queueFind_some hfind
    refine ⟨x, hx, hxn, ?_⟩
    unfold State.entryKind
    rw [hfind]

/-- Entries of one station are one. -/
theorem State.queuesMatch.entry_unique {s : State} (h : s.queuesMatch) {f f' : FeederNo} {e e' : QueueEntry}
    (he : e ∈ (s.feeder f).queue) (he' : e' ∈ (s.feeder f').queue) (hs : e.station = e'.station) : e = e' := by
  have hf := ((h.1 f e.station).mp (List.mem_map.mpr ⟨e, he, rfl⟩)).2
  have hf' := ((h.1 f' e'.station).mp (List.mem_map.mpr ⟨e', he', rfl⟩)).2
  have same : f = f' := by rw [← hf, ← hf', hs]
  subst same
  exact List.inj_on_of_nodup_map (h.2 f) he he' hs

/-- A waiting station's way with a new request, whatever it asks for (R32, R33). -/
theorem State.lawfulAt_queuedChange {s : State} (hq : s.queuesMatch) {n : StationNo}
    (hstate : (s.station n).state = .queued) (htimer : (s.station n).timer = none) (hrun : s.entriesRun n) :
    (s.queuedChange n).lawfulAt n := by
  obtain ⟨x, hx, hxn, hkind⟩ := hq.entry hstate
  obtain ⟨hstart, hraise⟩ := hrun _ x hx hxn
  have entry : ∀ f, ∀ e ∈ (s.feeder f).queue, e.station = n → e = x := fun f e he hen =>
    hq.entry_unique he hx (hen.trans hxn.symm)
  have waits : (s.station n).requested.speed ≠ .off → (s.station n).stateLaw := fun h => by
    unfold Station.stateLaw
    rw [hstate]
    exact ⟨h, htimer⟩
  unfold State.queuedChange
  dsimp only
  rw [hkind]
  split
  · next hk =>
    have stands := hstart hk
    split
    · next hstop =>
      exact State.lawfulAt_leave hq _ ⟨(isStop_iff _).mp hstop, stands, htimer⟩ nofun
    · next hstop =>
      have asks := (isStop_eq_false_iff _).mp (by simpa using hstop)
      refine State.lawfulAt_retarget hq (waits asks) fun f e he hen => ?_
      rw [entry f e he hen]
      exact ⟨rfl, rfl, fun _ => stands, fun h => by rw [hk] at h; cases h⟩
  · next hk =>
    have low := hraise hk
    have runs : (s.station n).effective.speed ≠ .off := by rw [low]; nofun
    split
    · exact State.lawfulAt_leave hq _ (Station.stateLaw_toStopping _) nofun
    · next hgoes =>
      simp only [Bool.or_eq_true, not_or, Bool.not_eq_true] at hgoes
      obtain ⟨hstop, hopp⟩ := hgoes
      have asks := (isStop_eq_false_iff _).mp hstop
      have dir := dir_of_not_opposite asks runs hopp
      split
      · next habove =>
        obtain ⟨high, -⟩ := speeds_of_above habove runs
        refine State.lawfulAt_retarget hq (waits asks) fun f e he hen => ?_
        rw [entry f e he hen]
        refine ⟨rfl, rfl, fun h => (nomatch hk.symm.trans h), fun _ => ⟨?_, high⟩⟩
        show (s.station n).effective = { dir := (s.station n).requested.dir, speed := .low }
        rw [dir, ← low]
      · exact State.lawfulAt_leave hq _ ⟨rfl, asks, htimer⟩ nofun

/-- However its request stands, a station is lawful once it has taken the change (R10). -/
theorem State.lawfulAt_lifecycleChange {s : State} (hq : s.queuesMatch) {n : StationNo} (hrest : (s.station n).restLaw)
    (hrun : s.entriesRun n) : (s.lifecycleChange n).lawfulAt n := by
  have stays : (s.station n).state ≠ .queued → (s.station n).commandLaw → s.lawfulAt n := fun hne hc =>
    ⟨(Station.stateLaw_iff _).mpr ⟨hrest, hc⟩, fun _ _ he hen => (hq.no_entry hne he hen).elim⟩
  have rest := hrest
  unfold Station.restLaw at rest
  unfold State.lifecycleChange
  split
  · next hstate =>
    rw [hstate] at rest
    split
    · next hstop =>
      exact stays (by rw [hstate]; nofun) (by unfold Station.commandLaw; rw [hstate]; exact (isStop_iff _).mp hstop)
    · next hstop =>
      have asks := (isStop_eq_false_iff _).mp (by simpa using hstop)
      exact State.lawfulAt_move hq _ ⟨asks, rfl⟩ fun _ hruns => absurd rest.1 hruns
  · next hstate =>
    rw [hstate] at rest
    exact State.lawfulAt_queuedChange hq hstate rest hrun
  · next hstate =>
    split
    · exact State.lawfulAt_leave hq _ (Station.stateLaw_toStopping _) nofun
    · next hstop =>
      exact stays (by rw [hstate]; nofun)
        (by unfold Station.commandLaw; rw [hstate]; exact (isStop_eq_false_iff _).mp (by simpa using hstop))
  · next hstate =>
    rw [hstate] at rest
    exact State.lawfulAt_runningChange hq hstate rest.1 rest.2
  all_goals
    next hstate => exact stays (by rw [hstate]; nofun) (by unfold Station.commandLaw; rw [hstate]; trivial)

theorem State.othersStay_runningChange (s : State) (n : StationNo) : s.othersStay (s.runningChange n) n := by
  unfold State.runningChange
  dsimp only
  split
  · exact s.othersStay_move n _ _
  · split
    · exact s.othersStay_put n _
    · split
      · exact s.othersStay_move n _ _
      · exact s.othersStay_refl n

theorem State.othersStay_queuedChange {s : State} (hq : s.queuesMatch) (n : StationNo) :
    s.othersStay (s.queuedChange n) n := by
  unfold State.queuedChange
  dsimp only
  split
  · split
    · exact s.othersStay_move n _ _
    · exact State.othersStay_retarget hq n
  · split
    · exact s.othersStay_move n _ _
    · split
      · exact State.othersStay_retarget hq n
      · exact s.othersStay_move n _ _

theorem State.othersStay_lifecycleChange {s : State} (hq : s.queuesMatch) (n : StationNo) :
    s.othersStay (s.lifecycleChange n) n := by
  unfold State.lifecycleChange
  split
  · split
    · exact s.othersStay_refl n
    · exact s.othersStay_move n _ _
  · exact State.othersStay_queuedChange hq n
  · split
    · exact s.othersStay_move n _ _
    · exact s.othersStay_refl n
  · exact s.othersStay_runningChange n
  all_goals exact s.othersStay_refl n

/-- A request unchanged but for STOP's direction leaves the law (R9, R10). -/
theorem Station.commandLaw_of_unchanged {d d' : Station} (h : d.stateLaw) (hs : d'.state = d.state)
    (he : d'.effective = d.effective) (hc : requestChanged d d' = false) : d'.commandLaw := by
  unfold requestChanged at hc
  simp only [Bool.or_eq_false_iff, Bool.not_eq_false', sameCommand, Bool.or_eq_true, Bool.and_eq_true, isStop_iff,
    beq_iff_eq] at hc
  obtain ⟨hsame, -⟩ := hc
  unfold Station.stateLaw at h
  unfold Station.commandLaw
  rw [hs, he]
  cases hstate : d.state <;> rw [hstate] at h <;> dsimp only at h ⊢
  · rcases hsame with ⟨-, h'⟩ | heq
    · exact h'
    · rw [← heq]; exact h.1
  · rcases hsame with ⟨h', -⟩ | heq
    · exact absurd h' h.1
    · rw [← heq]; exact h.1
  · rcases hsame with ⟨h', -⟩ | heq
    · exact absurd h' h.1
    · rw [← heq]; exact h.1
  · rcases hsame with ⟨h', -⟩ | heq
    · exact absurd (h.1 ▸ h') h.2.1
    · rw [← heq]; exact h.1

/-- The entry of a request unchanged: in QUEUED the requested command is no STOP, so that it is the same. -/
theorem Station.fits_of_unchanged {d d' : Station} {e : QueueEntry} (h : d.fits e) (hr : d.requested.speed ≠ .off)
    (he : d'.effective = d.effective) (hc : requestChanged d d' = false) : d'.fits e := by
  unfold requestChanged at hc
  simp only [Bool.or_eq_false_iff, Bool.not_eq_false', sameCommand, Bool.or_eq_true, Bool.and_eq_true, isStop_iff,
    beq_iff_eq, bne_eq_false_iff_eq] at hc
  obtain ⟨hsame, hcls⟩ := hc
  have requested : d.requested = d'.requested := hsame.resolve_left fun h => hr h.1
  refine ⟨h.target.trans requested, h.cls.trans hcls, fun hk => by rw [he]; exact h.start hk, fun hk => ?_⟩
  rw [he]
  exact h.raise hk

/-- A claim keeps the law: a change of a station's request that leaves state, effective command and timer. -/
theorem State.lifecycleLaw_claim {s : State} (hq : s.queuesMatch) (hs : s.lifecycleLaw) {n : StationNo} {d : Station}
    (hstate : d.state = (s.station n).state) (he : d.effective = (s.station n).effective)
    (ht : d.timer = (s.station n).timer) : (s.claim n d).lifecycleLaw := by
  obtain ⟨hlaw, hfits⟩ := s.lifecycleLaw_iff.mp hs n
  have rest : d.restLaw := Station.restLaw_congr ((Station.stateLaw_iff _).mp hlaw).1 hstate he ht
  have put := hq.put hstate
  have record : ((s.putStation n d).station n).effective = (s.station n).effective := by
    rw [State.effective_putStation_self, he]
  unfold State.claim
  split
  · refine State.lifecycleLaw_of_one hs ((s.othersStay_put n d).trans (State.othersStay_lifecycleChange put n))
      (State.lawfulAt_lifecycleChange put ?_ fun f e hin hen => ?_)
    · exact Station.restLaw_congr rest (State.state_putStation_self _ _ _) (State.effective_putStation_self _ _ _)
        (State.timer_putStation_self _ _ _)
    · rw [record]
      exact State.lawfulAt.entriesRun ⟨hlaw, hfits⟩ f e hin hen
  · next hc =>
    have hc : requestChanged (s.station n) d = false := by simpa using hc
    refine State.lifecycleLaw_of_one hs (s.othersStay_put n d) ⟨Station.stateLaw_put ?_, fun f e hin hen => ?_⟩
    · exact (Station.stateLaw_iff _).mpr ⟨rest, Station.commandLaw_of_unchanged hlaw hstate he hc⟩
    · have queued : (s.station n).state = .queued := by
        by_contra hne
        exact hq.no_entry hne hin hen
      unfold Station.stateLaw at hlaw
      rw [queued] at hlaw
      exact Station.fits_put (Station.fits_of_unchanged (hfits f e hin hen) hlaw.1 he hc)

theorem State.lifecycleLaw_setRequest {s : State} (hq : s.queuesMatch) (hs : s.lifecycleLaw) (n : StationNo)
    (c : FanCommand) : (s.setRequest n c).lifecycleLaw := State.lifecycleLaw_claim hq hs rfl rfl rfl

theorem State.lifecycleLaw_setTarget {s : State} (hq : s.queuesMatch) (hs : s.lifecycleLaw) (n : StationNo)
    (x : Option PlanTarget) : (s.setTarget n x).lifecycleLaw := State.lifecycleLaw_claim hq hs rfl rfl rfl

end Sys2Proof.Machine
end

section
/-! PROOF. The law of the lifecycle through every event, and every step. -/

namespace Sys2Proof.Machine

open Sys2Proof

/-! ### Events of one station -/

/-- A transition to another state than QUEUED keeps the law. -/
theorem State.lifecycleLaw_leave {s : State} (hq : s.queuesMatch) (hs : s.lifecycleLaw) (n : StationNo) {d : Station}
    (l : List ReportRecord) (hd : d.stateLaw) (hne : d.state ≠ .queued) : (s.moveStation n d l).lifecycleLaw :=
  State.lifecycleLaw_of_one hs (s.othersStay_move n d l) (State.lawfulAt_leave hq l hd hne)

/-- A change of fields that neither request nor target, state nor effective command are among keeps the law, if the
record meets it. -/
theorem State.lifecycleLaw_put {s : State} (hs : s.lifecycleLaw) (n : StationNo) {d : Station}
    (hd : d.stateLaw) (hr : d.request = (s.station n).request) (ht : d.target = (s.station n).target)
    (he : d.effective = (s.station n).effective) : (s.putStation n d).lifecycleLaw := by
  refine State.lifecycleLaw_of_one hs (s.othersStay_put n d) ⟨Station.stateLaw_put hd, fun f e hin hen => ?_⟩
  have fits := (s.lifecycleLaw_iff.mp hs n).2 f e hin hen
  have requested : d.requested = (s.station n).requested := by
    unfold Station.requested
    rw [hr, ht]
  have cls : d.entryClass = (s.station n).entryClass := by
    unfold Station.entryClass
    rw [ht]
  refine Station.fits_put ⟨fits.target.trans requested.symm, fits.cls.trans cls.symm, fun hk => ?_, fun hk => ?_⟩
  · rw [he]; exact fits.start hk
  · rw [he]; exact fits.raise hk

theorem State.lifecycleLaw_hand {s : State} (hs : s.lifecycleLaw) (l : List ReportRecord) : (s.hand l).lifecycleLaw := hs

theorem State.lifecycleLaw_changeLocks {s : State} (hq : s.queuesMatch) (hs : s.lifecycleLaw) (n : StationNo) (k : Nat)
    (b : Bool) (l : LockSet) : (s.changeLocks n k b l).lifecycleLaw := by
  unfold State.changeLocks
  dsimp only
  split
  · exact State.lifecycleLaw_leave hq hs n _ (Station.stateLaw_toLocked _) nofun
  · split
    · have leaves : ∀ d : Station, (d = (s.station n).toDwell (s.static n).dwell ∨ d = (s.station n).toStopping) →
          (s.moveStation n { d with locks := l } [lockRecord s n k b l]).lifecycleLaw := by
        rintro d (rfl | rfl)
        · exact State.lifecycleLaw_leave hq hs n _ (Station.stateLaw_toDwell _ _) nofun
        · exact State.lifecycleLaw_leave hq hs n _ (Station.stateLaw_toStopping _) nofun
      apply leaves
      unfold Station.unlocked
      split
      · split
        · exact .inl rfl
        · exact .inr rfl
      · exact .inr rfl
    · have put : (s.putStation n { s.station n with locks := l }).lifecycleLaw :=
        State.lifecycleLaw_put hs n (hs.1 n) rfl rfl rfl
      exact State.lifecycleLaw_hand put _

theorem State.lifecycleLaw_trip {s : State} (hq : s.queuesMatch) (hs : s.lifecycleLaw) (n : StationNo) (c : TripCause) :
    (s.tripStation n c).lifecycleLaw := State.lifecycleLaw_leave hq hs n _ (Station.stateLaw_toTripped _ _) nofun

theorem State.lifecycleLaw_dwell {s : State} (hq : s.queuesMatch) (hs : s.lifecycleLaw) (n : StationNo)
    (l : List ReportRecord) : (s.dwellStation n l).lifecycleLaw :=
  State.lifecycleLaw_leave hq hs n _ (Station.stateLaw_toDwell _ _) nofun

theorem State.lifecycleLaw_unexpectedStop {s : State} (hq : s.queuesMatch) (hs : s.lifecycleLaw) (n : StationNo) :
    (s.unexpectedStop n).lifecycleLaw := by
  unfold State.unexpectedStop
  split
  · exact State.lifecycleLaw_trip hq hs n _
  · exact State.lifecycleLaw_dwell hq hs n _

/-- The end of a start (R36): RUNNING at the effective command, and at once a changed request taken by its rules. -/
theorem State.lifecycleLaw_startEnds {s : State} (hq : s.queuesMatch) (hs : s.lifecycleLaw) (n : StationNo)
    (hstate : (s.station n).state = .starting) : (s.startEnds n).lifecycleLaw := by
  have law := hs.1 n
  unfold Station.stateLaw at law
  rw [hstate] at law
  obtain ⟨asks, runs⟩ := law
  unfold State.startEnds
  dsimp only
  split
  · next hsame =>
    simp only [sameCommand, Bool.or_eq_true, Bool.and_eq_true, isStop_iff, beq_iff_eq] at hsame
    exact State.lifecycleLaw_leave hq hs n _ ⟨hsame.resolve_left fun h => asks h.1, runs, rfl⟩ nofun
  · refine State.lifecycleLaw_of_one hs ((s.othersStay_move n _ _).trans (State.othersStay_runningChange _ n))
      (State.lawfulAt_runningChange (hq.move n _ _) ?_ ?_ ?_)
    · rw [State.state_moveStation_self]
    · rw [State.effective_moveStation_self]; exact runs
    · rw [State.timer_moveStation_self]

theorem State.lifecycleLaw_judgeDrive {s : State} (hq : s.queuesMatch) (hs : s.lifecycleLaw) (n : StationNo)
    (o : Observed) : (s.judgeDrive n o).lifecycleLaw := by
  unfold State.judgeDrive
  dsimp only
  split
  · split
    · exact State.lifecycleLaw_unexpectedStop hq hs n
    · exact hs
  · next hstate =>
    split
    · exact State.lifecycleLaw_dwell hq hs n _
    · split
      · exact State.lifecycleLaw_startEnds hq hs n hstate
      · exact hs
  · split
    · exact State.lifecycleLaw_unexpectedStop hq hs n
    · exact hs
  · split
    · exact State.lifecycleLaw_dwell hq hs n _
    · exact hs
  all_goals exact hs

theorem State.lifecycleLaw_wordSeen {s : State} (hq : s.queuesMatch) (hs : s.lifecycleLaw) (n : StationNo) (o : Observed) :
    (s.wordSeen n o).lifecycleLaw := by
  have seen : (s.putStation n { s.station n with observed := some o }).lifecycleLaw :=
    State.lifecycleLaw_put hs n (hs.1 n) rfl rfl rfl
  have matched : (s.putStation n { s.station n with observed := some o }).queuesMatch := hq.put rfl
  unfold State.wordSeen
  split
  · exact seen
  · exact State.lifecycleLaw_changeLocks matched seen n _ _ _

theorem Touches.queuesMatch {s t : State} (h : Touches s t) (hs : s.queuesMatch) : t.queuesMatch :=
  h.keeps (fun hst hu => hst.queuesMatch hu) hs

theorem State.lifecycleLaw_stationWord {s : State} (hq : s.queuesMatch) (hs : s.lifecycleLaw) (n : StationNo)
    (o : Observed) : (s.stationWord n o).lifecycleLaw := by
  have seen := State.lifecycleLaw_wordSeen hq hs n o
  have match' := (s.touches_wordSeen n o).queuesMatch hq
  rw [s.stationWord_eq]
  split
  · exact seen
  · split
    · split
      · exact seen
      · exact State.lifecycleLaw_trip match' seen n _
    · exact State.lifecycleLaw_judgeDrive match' seen n o

theorem State.lifecycleLaw_dwellExpiry {s : State} (hq : s.queuesMatch) (hs : s.lifecycleLaw) (n : StationNo) :
    (s.dwellExpiry n).lifecycleLaw := by
  unfold State.dwellExpiry
  split
  · next hdue =>
    have law := hs.1 n
    unfold Station.stateLaw at law
    rw [hdue.1] at law
    obtain ⟨stands, -⟩ := law
    split
    · next hstop =>
      have law : ({ s.station n with state := .off, timer := none } : Station).stateLaw :=
        ⟨(isStop_iff _).mp hstop, stands, rfl⟩
      exact State.lifecycleLaw_leave hq hs n _ law nofun
    · next hstop =>
      have asks := (isStop_eq_false_iff _).mp (by simpa using hstop)
      have law : (s.station n).toQueued.stateLaw := ⟨asks, rfl⟩
      exact State.lifecycleLaw_of_one hs (s.othersStay_move n _ _)
        (State.lawfulAt_move hq _ law fun _ hruns => absurd stands hruns)
  · exact hs

theorem State.lifecycleLaw_confirm {s : State} (hs : s.lifecycleLaw) (n : StationNo) : (s.confirm n).lifecycleLaw := by
  have law := hs.1 n
  unfold Station.stateLaw at law
  unfold State.confirm
  dsimp only
  split
  · exact hs
  · split
    · next hstate =>
      rw [hstate] at law
      exact State.lifecycleLaw_put hs n (by unfold Station.stateLaw; dsimp only; rw [hstate]; exact law) rfl rfl rfl
    · next hstate =>
      rw [hstate] at law
      exact State.lifecycleLaw_put hs n (by unfold Station.stateLaw; dsimp only; rw [hstate]; exact law) rfl rfl rfl
    all_goals exact hs

theorem Move.lifecycleLaw {s t : State} (h : Move s t) (hq : s.queuesMatch) (hs : s.lifecycleLaw) : t.lifecycleLaw := by
  cases h with
  | grant f => exact State.lifecycleLaw_grant hq hs f
  | word n o => exact State.lifecycleLaw_stationWord hq hs n o
  | startTimeout n =>
    unfold State.startTimeout
    split
    · exact State.lifecycleLaw_trip hq hs n _
    · exact hs
  | stopTimeout n =>
    unfold State.stopTimeout
    split
    · exact State.lifecycleLaw_leave hq hs n _ (Station.stateLaw_toDwell _ _) nofun
    · exact hs
  | dwellExpiry n => exact State.lifecycleLaw_dwellExpiry hq hs n
  | confirm n => exact State.lifecycleLaw_confirm hs n
  | lock n on =>
    unfold State.operatorLock
    split
    · exact hs
    · exact State.lifecycleLaw_changeLocks hq hs n _ _ _
  | tripCleared n _ => exact State.lifecycleLaw_leave hq hs n _ ⟨rfl, nofun⟩ nofun

/-! ### Claims at several stations -/

/-- The queues match the stations, and the stations keep the law of the lifecycle. -/
def State.sequenced (s : State) : Prop := s.queuesMatch ∧ s.lifecycleLaw

theorem State.sequenced_setRequest {s : State} (h : s.sequenced) (n : StationNo) (c : FanCommand) :
    (s.setRequest n c).sequenced :=
  ⟨(s.touches_setRequest n c).queuesMatch h.1, State.lifecycleLaw_setRequest h.1 h.2 n c⟩

theorem State.sequenced_setTarget {s : State} (h : s.sequenced) (n : StationNo) (x : Option PlanTarget) :
    (s.setTarget n x).sequenced :=
  ⟨(s.touches_setTarget n x).queuesMatch h.1, State.lifecycleLaw_setTarget h.1 h.2 n x⟩

theorem State.sequenced_grant {s : State} (h : s.sequenced) (f : FeederNo) : (s.grant f).sequenced :=
  ⟨h.1.grant f, State.lifecycleLaw_grant h.1 h.2 f⟩

theorem State.sequenced_presentInTurns {s : State} (h : s.sequenced) (turns : List Turn) (x : Targets) :
    (s.presentInTurns turns x).sequenced :=
  State.takeClaims_keeps _ State.sequenced (fun _ n h => State.sequenced_setTarget h n _)
    (fun _ f h => State.sequenced_grant h f) turns _ _ s h

theorem State.sequenced_presentTargets {s : State} (h : s.sequenced) (x : Targets) : (s.presentTargets x).sequenced :=
  State.sequenced_presentInTurns (s := s.restTurns) h _ x

/-- The incident, its view and the monitor change, records are handed, and targets are presented. -/
theorem State.sequenced_incident {s : State} (h : s.sequenced) (i : Option Incident) (v : Option (Table Bool 64))
    (m : AirflowMonitor) (l : List ReportRecord) (x : Targets) :
    (State.presentTargets { s with incident := i, view := v, airflow := m, writer := s.writer.handAll l } x).sequenced :=
  State.sequenced_presentTargets (s := { s with incident := i, view := v, airflow := m, writer := s.writer.handAll l }) h x

theorem Claims.sequenced {s t : State} (h : Claims s t) (hs : s.sequenced) : t.sequenced := by
  refine ⟨h.touches.queuesMatch hs.1, ?_⟩
  cases h with
  | move m => exact m.lifecycleLaw hs.1 hs.2
  | absorbed n c =>
    exact (State.takeClaims_keeps _ State.sequenced (fun _ m h => State.sequenced_setRequest h m c)
      (fun _ f h => State.sequenced_grant h f) _ _ _ s.restTurns hs).2
  | plan i r _ => exact (State.sequenced_incident hs _ _ _ _ _).2
  | release i => exact (State.sequenced_incident hs none none _ [_] _).2
  | boost i _ => exact (State.sequenced_incident hs (some { i with boost := true }) s.view _ _ _).2
  | seek _ o _ _ => exact (State.sequenced_presentInTurns (s := s.hand _) hs _ _).2

/-! ### Every step -/

theorem Station.stateLaw_aged {d d' : Station} (h : d.aged d') (hd : d.stateLaw) : d'.stateLaw := by
  obtain ⟨frame, htimer⟩ := h
  have none : d.timer = none → d'.timer = none := fun hn => by
    rcases htimer with heq | ⟨k, hk, -⟩
    · rw [heq, hn]
    · rw [hn] at hk; cases hk
  have some : d.timer ≠ Option.none → d'.timer ≠ Option.none := fun hs => by
    rcases htimer with heq | ⟨k, -, hk⟩
    · rwa [heq]
    · rw [hk]; nofun
  have state : d'.state = d.state := by rw [frame]
  have requested : d'.requested = d.requested := by rw [frame]; rfl
  have effective : d'.effective = d.effective := by rw [frame]
  unfold Station.stateLaw at *
  rw [state, requested, effective]
  cases hstate : d.state <;> rw [hstate] at hd <;> dsimp only at hd ⊢
  · exact ⟨hd.1, hd.2.1, none hd.2.2⟩
  · exact ⟨hd.1, none hd.2⟩
  · exact hd
  · exact ⟨hd.1, hd.2.1, none hd.2.2⟩
  · exact hd
  · exact ⟨hd.1, some hd.2⟩
  · exact ⟨hd.1, none hd.2⟩
  · exact ⟨hd.1, none hd.2⟩

theorem Station.fits_aged {d d' : Station} {e : QueueEntry} (h : d.aged d') (he : d.fits e) : d'.fits e := by
  rw [h.frame]
  exact ⟨he.target, he.cls, he.start, he.raise⟩

theorem Station.stateLaw_readIn (w : Word) : (Station.readIn w).stateLaw := by
  unfold Station.stateLaw Station.readIn
  dsimp only
  by_cases h : isStop (commandReadIn w) = true
  · rw [if_pos h]
    exact ⟨(isStop_iff _).mp h, (isStop_iff _).mp h, rfl⟩
  · rw [if_neg h]
    exact ⟨rfl, (isStop_eq_false_iff _).mp (by simpa using h), rfl⟩

theorem Act.lifecycleLaw {s t : State} (h : Act s t) (hq : s.queueLaw) (hs : s.lifecycleLaw) : t.lifecycleLaw := by
  have tq := h.queueLaw hq
  rcases h.records with ⟨-, claims⟩ | records
  · exact (claims.sequenced ⟨⟨hq.1, hq.2.1⟩, hs⟩).2
  rw [State.lifecycleLaw_iff] at *
  have entries : ∀ f, ∀ e ∈ (t.feeder f).queue, e ∈ (s.feeder f).queue ∨ (s.part = .guard ∧ Claims s t) := by
    intro f e he
    rcases h.still_or with still | claims | ⟨idle, -⟩
    · exact .inl (still.queue f ▸ he)
    · exact .inr claims
    · rw [(idle (State.idle_of_queueLaw hq)).2 f] at he
      cases he
  intro n
  rcases records n with aged | ⟨-, outside⟩
  · refine ⟨Station.stateLaw_aged aged (hs n).1, fun f e he hen => ?_⟩
    rcases entries f e he with hin | ⟨-, claims⟩
    · exact Station.fits_aged aged ((hs n).2 f e hin hen)
    · exact (t.lifecycleLaw_iff.mp (claims.sequenced ⟨⟨hq.1, hq.2.1⟩, s.lifecycleLaw_iff.mpr hs⟩).2 n).2 f e he hen
  · have unqueued : (t.station n).stateLaw ∧ (t.station n).state ≠ .queued := by
      rcases outside with ⟨w, heq⟩ | heq <;> rw [heq]
      · exact ⟨Station.stateLaw_readIn w, by rcases Station.readIn_state w with h | h <;> rw [h] <;> nofun⟩
      · exact ⟨⟨rfl, rfl, rfl⟩, nofun⟩
    exact ⟨unqueued.1, fun f e he hen => (State.queuesMatch.no_entry ⟨tq.1, tq.2.1⟩ unqueued.2 he hen).elim⟩

theorem Aside.lifecycleLaw {s t : State} (h : Aside s t) (hs : s.lifecycleLaw) : t.lifecycleLaw := by
  rw [State.lifecycleLaw_iff] at *
  exact fun n => State.lawfulAt_of_stays (hs n) (h.station n) fun f e he _ => h.still.queue f ▸ he

/-- The law of the lifecycle, while the queue law holds, every step keeps. -/
theorem step_lifecycleLaw {s t : State} (hq : s.queueLaw) (hs : s.lifecycleLaw) (hstep : step s = .next t) :
    t.lifecycleLaw :=
  (step_keeps_with_queues (P := State.lifecycleLaw) (fun _ _ h => h) (fun h hs => h.lifecycleLaw hs)
    (fun h hq hs => h.lifecycleLaw hq hs) hstep hq hs).2

end Sys2Proof.Machine
end

section
/-! PROOF. Targets, the incident and the alarms (O53): the spare search keeps what the targets of an incident are, and
only the incident controller changes them. -/

namespace Sys2Proof.Machine

open Sys2Proof

/-! ### What the plan in force gives (R99, R109) -/

theorem governing_eq_none {l : List PoolEntry} : governing l = none ↔ l = [] := by
  cases l with
  | nil => simp [governing]
  | cons e rest =>
    simp only [governing, reduceCtorEq, iff_false]
    split
    · nofun
    · split <;> nofun

/-- Entries in force before a boost stay in force in it. -/
theorem entriesFor_of_boost {c : Cells Word} {plan : Nat} {b : Bool} {n : StationNo} (h : entriesFor c plan b n = []) :
    entriesFor c plan false n = [] := by
  unfold entriesFor at *
  rw [List.filter_eq_nil_iff] at *
  intro e he hforce
  refine h e he ?_
  simp only [Bool.and_eq_true] at *
  refine ⟨?_, hforce.2⟩
  have before := hforce.1
  unfold inForce at *
  cases b with
  | false => exact before
  | true =>
    simp only [Bool.and_false, Bool.or_false] at before
    rw [before, Bool.true_or]

/-- A station to which the boosted plan gives nothing has no tier-1 target. -/
theorem planTarget_unboosted {c : Cells Word} {i : Incident} {n : StationNo} (h : planTarget c i n = none) :
    planTarget c { i with boost := false } n = none := by
  unfold planTarget at *
  split
  · next hp =>
    rw [if_pos hp] at h
    have none : entriesFor c i.plan i.boost n = [] := governing_eq_none.mp (Option.map_eq_none_iff.mp h)
    show (governing (entriesFor c i.plan false n)).map _ = _
    rw [entriesFor_of_boost none]
    rfl
  · rfl

/-- The plan gives no SPARE target. -/
theorem standsFor_planTarget (c : Cells Word) (i : Incident) (n : StationNo) : standsFor (planTarget c i n) = none := by
  unfold planTarget
  split
  · cases governing (entriesFor c i.plan i.boost n) with
    | none => rfl
    | some e => exact standsFor_targetOf _ e
  · rfl

theorem standsFor_eq_some {t : Option PlanTarget} {o : StationNo} :
    standsFor t = some o ↔ ∃ x, t = some x ∧ x.role = .spare o := by
  unfold standsFor
  split
  · next x =>
    split
    · next o' hr => simp [hr]
    · next hr => simp [hr]
    · next hr => simp [hr]
  · simp

/-! ### The targets of an incident -/

/-- The targets are those of an incident (R109, R112, R116): of the plan in force, but for engaged spares, which copy
the RUN target of the original that names them. -/
structure State.targeted (s : State) (i : Incident) (t : StationNo → Option PlanTarget) : Prop where
  plan : ∀ n, standsFor (t n) = none → t n = planTarget s.copy i n
  named : ∀ n o, standsFor (t n) = some o → (s.static o).spareSet = true ∧ (s.static o).spare = n.val
  free : ∀ n o, standsFor (t n) = some o → planTarget s.copy { i with boost := false } n = none
  copies : ∀ n o y, standsFor (t n) = some o → t o = some y → y.role = .run → t n = some (spareCopy o y)

/-- A spare found is named by its original, available, and has no target. -/
theorem spareFor_ok {s : State} {t : Targets} {o sp : StationNo} (h : spareFor s t o = .ok sp) :
    (s.static o).spareSet = true ∧ (s.static o).spare = sp.val ∧ s.available sp = true ∧ t.nth sp = none := by
  unfold spareFor at h
  split at h
  · cases h
  · next hset =>
    split at h
    · next hlt =>
      dsimp only at h
      split at h
      · cases h
      · next havail =>
        split at h
        · next hnone =>
          cases h
          exact ⟨by simpa using hset, rfl, by simpa using havail, hnone⟩
        · split at h <;> cases h
    · cases h

/-- A search for one original keeps the targets those of the incident (R112). -/
theorem State.targeted.searchOne {s : State} {i : Incident} {t : Targets} (h : s.targeted i t.nth) (o : StationNo) :
    s.targeted i (searchOne s t o).1.nth := by
  unfold Machine.searchOne
  split
  · exact h
  · next x hx =>
    split
    · next sp hsp =>
      obtain ⟨hset, hspare, -, hnone⟩ := spareFor_ok hsp
      have distinct : o ≠ sp := fun heq => by
        rw [heq, hnone] at hx
        cases hx
      have put : ∀ n, (t.put sp (some (spareCopy o x))).nth n = if n = sp then some (spareCopy o x) else t.nth n :=
        fun n => Table.nth_put t sp n _
      have spare : standsFor (some (spareCopy o x)) = some o := rfl
      refine ⟨fun n hn => ?_, fun n o' hn => ?_, fun n o' hn => ?_, fun n o' y hn hy hrun => ?_⟩
      · rw [put] at hn ⊢
        split at hn
        · cases hn
        · next hne => rw [if_neg hne]; exact h.plan n hn
      · rw [put] at hn
        split at hn
        · next heq =>
          cases hn
          exact ⟨hset, heq ▸ hspare⟩
        · exact h.named n o' hn
      · rw [put] at hn
        split at hn
        · next heq =>
          subst heq
          exact planTarget_unboosted ((h.plan n (by rw [hnone]; rfl)).symm.trans hnone)
        · exact h.free n o' hn
      · dsimp only at hn hy ⊢
        rw [put] at hn hy ⊢
        have original : o' ≠ sp := fun heq => by
          rw [if_pos heq] at hy
          cases hy
          cases hrun
        rw [if_neg original] at hy
        split at hn
        · next heq =>
          cases hn
          rw [if_pos heq]
          rw [hx] at hy
          cases hy
          rfl
        · next hne => rw [if_neg hne]; exact h.copies n o' y hn hy hrun
    · exact h

theorem State.targeted.searchSpares {s : State} {i : Incident} (l : List StationNo) {t : Targets}
    (h : s.targeted i t.nth) : s.targeted i (searchSpares s t l).1.nth := by
  induction l generalizing t with
  | nil => exact h
  | cons o rest ih => exact ih (h.searchOne o)

/-- The plan's own targets are those of the incident. -/
theorem State.targeted_plan (s : State) (i : Incident) : s.targeted i (planTargets s.copy i).nth := by
  have plan : ∀ n, (planTargets s.copy i).nth n = planTarget s.copy i n := fun n => Table.nth_tabulate _ _
  have none : ∀ {n o}, standsFor ((planTargets s.copy i).nth n) = some o → False := fun {n o} h => by
    rw [plan, standsFor_planTarget] at h
    cases h
  exact ⟨fun n _ => plan n, fun n o h => (none h).elim, fun n o h => (none h).elim, fun n o y h => (none h).elim⟩

/-! ### Boost (R116, R117) -/

theorem standsFor_spareCopy (o : StationNo) (x : PlanTarget) : standsFor (some (spareCopy o x)) = some o := rfl

/-- Following its original, a spare stays the spare it is, and any other target stays. -/
theorem standsFor_followOriginal (t : Targets) (n : StationNo) : standsFor (followOriginal t n) = standsFor (t.nth n) := by
  unfold followOriginal
  split
  · rfl
  · next o hn =>
    rw [hn]
    split
    · next x _ =>
      split
      · rfl
      · exact hn
    · exact hn

theorem followOriginal_of_none {t : Targets} {n : StationNo} (h : standsFor (t.nth n) = none) :
    followOriginal t n = t.nth n := by
  unfold followOriginal
  rw [h]

/-- The targets of a boost are those of the boosted incident, if those held were of the incident. -/
theorem State.targeted_boost {s : State} {i : Incident} (h : s.targeted i fun n => (s.station n).target) :
    s.targeted { i with boost := true } (boostedTargets s { i with boost := true }).nth := by
  let t : Targets := Table.tabulate (boostedTarget s { i with boost := true })
  have final : ∀ n, (boostedTargets s { i with boost := true }).nth n = followOriginal t n := fun n => Table.nth_tabulate _ _
  have boosted : ∀ n, t.nth n = boostedTarget s { i with boost := true } n := fun n => Table.nth_tabulate _ _
  have kept : ∀ {n o}, standsFor (t.nth n) = some o → standsFor (s.station n).target = some o ∧ t.nth n = (s.station n).target := by
    intro n o hn
    rw [boosted] at hn ⊢
    unfold boostedTarget at *
    split at hn
    · next hspare => rw [if_pos hspare]; exact ⟨hn, rfl⟩
    · rw [standsFor_planTarget] at hn
      cases hn
  have spare : ∀ {n o}, standsFor ((boostedTargets s { i with boost := true }).nth n) = some o →
      standsFor (t.nth n) = some o := fun hn => by rwa [final, standsFor_followOriginal] at hn
  refine ⟨fun n hn => ?_, fun n o hn => ?_, fun n o hn => ?_, fun n o y hn hy hrun => ?_⟩
  · rw [final, standsFor_followOriginal] at hn
    rw [final, followOriginal_of_none hn, boosted]
    rw [boosted] at hn
    unfold boostedTarget at *
    split
    · next hspare =>
      rw [if_pos hspare] at hn
      rw [hn] at hspare
      cases hspare
    · rfl
  · exact h.named n o (kept (spare hn)).1
  · exact h.free n o (kept (spare hn)).1
  · have stands := spare hn
    have own : standsFor (t.nth o) = none := by
      by_contra hne
      obtain ⟨o', ho'⟩ := Option.ne_none_iff_exists'.mp hne
      have both : standsFor (some y) = some o' := by
        rw [← hy, final, standsFor_followOriginal]
        exact ho'
      unfold standsFor at both
      dsimp only at both
      rw [hrun] at both
      cases both
    rw [final] at hy ⊢
    rw [followOriginal_of_none own] at hy
    unfold followOriginal
    rw [stands]
    dsimp only
    rw [hy]
    exact if_pos hrun

/-! ### Events that leave the targets -/

/-- The plan targets stay. -/
def State.targetsStay (s t : State) : Prop := ∀ m, (t.station m).target = (s.station m).target

theorem State.targetsStay_refl (s : State) : s.targetsStay s := fun _ => rfl

theorem State.targetsStay.trans {s t u : State} (h : s.targetsStay t) (h' : t.targetsStay u) : s.targetsStay u :=
  fun m => (h' m).trans (h m)

theorem State.targetsStay_move (s : State) (n : StationNo) (d : Station) (l : List ReportRecord)
    (h : d.target = (s.station n).target) : s.targetsStay (s.moveStation n d l) :=
  fun m => s.target_moveStation n m d l h

theorem State.targetsStay_put (s : State) (n : StationNo) (d : Station) (h : d.target = (s.station n).target) :
    s.targetsStay (s.putStation n d) := by
  intro m
  rw [State.target_putStation]
  split
  · next hm => rw [hm]; exact h
  · rfl

theorem State.targetsStay_unlocked (s : State) (n : StationNo) :
    ((s.station n).unlocked (s.static n).dwell).target = (s.station n).target := by
  unfold Station.unlocked
  split
  · split <;> rfl
  · rfl

theorem State.targetsStay_changeLocks (s : State) (n : StationNo) (k : Nat) (b : Bool) (l : LockSet) :
    s.targetsStay (s.changeLocks n k b l) := by
  unfold State.changeLocks
  dsimp only
  split
  · exact s.targetsStay_move n _ _ rfl
  · split
    · exact s.targetsStay_move n _ _ (s.targetsStay_unlocked n)
    · exact s.targetsStay_put n _ rfl

theorem State.targetsStay_unexpectedStop (s : State) (n : StationNo) : s.targetsStay (s.unexpectedStop n) := by
  unfold State.unexpectedStop
  split
  · exact s.targetsStay_move n _ _ rfl
  · exact s.targetsStay_move n _ _ rfl

theorem State.targetsStay_startEnds (s : State) (n : StationNo) : s.targetsStay (s.startEnds n) := by
  unfold State.startEnds
  dsimp only
  split
  · exact s.targetsStay_move n _ _ rfl
  · have moved : s.targetsStay (s.moveStation n { s.station n with state := .running, timer := none } []) :=
      s.targetsStay_move n _ _ rfl
    exact moved.trans fun m => State.target_runningChange _ n m

theorem State.targetsStay_judgeDrive (s : State) (n : StationNo) (o : Observed) : s.targetsStay (s.judgeDrive n o) := by
  unfold State.judgeDrive
  dsimp only
  split
  · split
    · exact s.targetsStay_unexpectedStop n
    · exact s.targetsStay_refl
  · split
    · exact s.targetsStay_move n _ _ rfl
    · split
      · exact s.targetsStay_startEnds n
      · exact s.targetsStay_refl
  · split
    · exact s.targetsStay_unexpectedStop n
    · exact s.targetsStay_refl
  · split
    · exact s.targetsStay_move n _ _ rfl
    · exact s.targetsStay_refl
  all_goals exact s.targetsStay_refl

theorem State.targetsStay_stationWord (s : State) (n : StationNo) (o : Observed) : s.targetsStay (s.stationWord n o) := by
  have seen : s.targetsStay (s.wordSeen n o) := by
    have put := s.targetsStay_put n { s.station n with observed := some o } rfl
    unfold State.wordSeen
    split
    · exact put
    · exact put.trans (State.targetsStay_changeLocks _ n _ _ _)
  rw [s.stationWord_eq]
  split
  · exact seen
  · split
    · split
      · exact seen
      · exact seen.trans (State.targetsStay_move _ n _ _ rfl)
    · exact seen.trans (State.targetsStay_judgeDrive _ n o)

theorem Move.targetsStay {s t : State} (h : Move s t) : s.targetsStay t := by
  cases h with
  | grant f => exact s.target_grant f
  | word n o => exact s.targetsStay_stationWord n o
  | startTimeout n =>
    unfold State.startTimeout
    split
    · exact s.targetsStay_move n _ _ rfl
    · exact s.targetsStay_refl
  | stopTimeout n =>
    unfold State.stopTimeout
    split
    · exact s.targetsStay_move n _ _ rfl
    · exact s.targetsStay_refl
  | dwellExpiry n =>
    unfold State.dwellExpiry
    split
    · split <;> exact s.targetsStay_move n _ _ rfl
    · exact s.targetsStay_refl
  | confirm n =>
    unfold State.confirm
    dsimp only
    split
    · exact s.targetsStay_refl
    · split
      · exact s.targetsStay_put n _ rfl
      · exact s.targetsStay_put n _ rfl
      all_goals exact s.targetsStay_refl
  | lock n on =>
    unfold State.operatorLock
    split
    · exact s.targetsStay_refl
    · exact s.targetsStay_changeLocks n _ _ _
  | tripCleared n _ => exact s.targetsStay_move n _ _ rfl

/-! ### The targets after claims -/

theorem State.incident_presentInTurns (s : State) (turns : List Turn) (x : Targets) :
    (s.presentInTurns turns x).incident = s.incident := by rw [(s.stationsOnly_presentInTurns turns x).1]

/-- What claims leave: the targets and the incident as they were; or the targets of an incident; or none of either. -/
theorem Claims.targets {s t : State} (h : Claims s t) : (t.incident = s.incident ∧ s.targetsStay t)
      ∨ (∃ i, t.incident = some i ∧ ((∀ j, s.incident = some j → s.targeted j fun n => (s.station n).target) →
          s.targeted i fun n => (t.station n).target))
      ∨ (t.incident = none ∧ ∀ n, (t.station n).target = none) := by
  cases h with
  | move m => exact .inl ⟨by rw [m.stationsOnly.1], m.targetsStay⟩
  | absorbed n c => exact .inl ⟨by rw [(s.stationsOnly_absorbed n c).1], fun m => s.target_absorbed n m c⟩
  | plan i r _ =>
    refine .inr (.inl ⟨i, by rw [(s.stationsOnly_applyPlan i r).1], fun _ => ?_⟩)
    have law := (s.targeted_plan i).searchSpares (uncoveredOriginals s (planTargets s.copy i))
    have same : (fun n => ((s.applyPlan i r).station n).target)
        = (searchSpares s (planTargets s.copy i) (uncoveredOriginals s (planTargets s.copy i))).1.nth :=
      funext fun n => s.target_applyPlan i r n
    rw [same]
    exact law
  | release i =>
    refine .inr (.inr ⟨?_, fun n => ?_⟩)
    · unfold State.releaseIncident
      rw [(State.stationsOnly_presentTargets _ _).1]
    · unfold State.releaseIncident
      rw [State.target_presentTargets, Table.nth_replicate]
  | boost i hi =>
    refine .inr (.inl ⟨{ i with boost := true }, ?_, fun hs => ?_⟩)
    · unfold State.applyBoost
      dsimp only
      rw [(State.stationsOnly_presentTargets _ _).1]
    · have law := (State.targeted_boost (hs i hi)).searchSpares
        (boostOriginals s (boostedTargets s { i with boost := true }))
      have same : (fun n => ((s.applyBoost i).station n).target)
          = (searchSpares s (boostedTargets s { i with boost := true })
              (boostOriginals s (boostedTargets s { i with boost := true }))).1.nth := by
        funext n
        unfold State.applyBoost
        dsimp only
        rw [State.target_presentTargets]
      rw [same]
      exact law
  | seek i o hi _ =>
    refine .inr (.inl ⟨i, ?_, fun hs => ?_⟩)
    · unfold State.seekSpare
      rw [State.incident_presentInTurns]
      exact hi
    · have held : s.targeted i s.targets.nth := by
        have same : s.targets.nth = fun n => (s.station n).target := funext fun n => Table.nth_tabulate _ _
        rw [same]
        exact hs i hi
      have same : (fun n => ((s.seekSpare o).station n).target) = (searchOne s s.targets o).1.nth := by
        funext n
        unfold State.seekSpare
        rw [State.target_presentInTurns]
      rw [same]
      exact held.searchOne o

end Sys2Proof.Machine
end

section
/-! PROOF. The laws of the incident, its targets and the alarms, through every step (O53). -/

namespace Sys2Proof.Machine

open Sys2Proof

/-- The targets of the active incident, if there is one. -/
def State.targetsLaw (s : State) : Prop := ∀ i, s.incident = some i → s.targeted i fun n => (s.station n).target

theorem State.targeted_congr {s t : State} {i : Incident} {x y : StationNo → Option PlanTarget} (h : s.targeted i x)
    (hcopy : t.copy = s.copy) (hxy : ∀ n, y n = x n) : t.targeted i y := by
  have same : y = x := funext hxy
  subst same
  have static : ∀ n, t.static n = s.static n := fun n => by unfold State.static; rw [hcopy]
  refine ⟨fun n hn => ?_, fun n o hn => ?_, fun n o hn => ?_, h.copies⟩
  · rw [hcopy]; exact h.plan n hn
  · rw [static]; exact h.named n o hn
  · rw [hcopy]; exact h.free n o hn

/-- The airflow state is no part of what the plan gives. -/
theorem State.targeted.phase {s : State} {i : Incident} {t : StationNo → Option PlanTarget} (h : s.targeted i t)
    (x : AirflowPhase) : s.targeted { i with airflow := x } t := ⟨h.plan, h.named, h.free, h.copies⟩

theorem State.targetsLaw_of_targetLaw {s : State} (h : s.targetLaw) : s.targetsLaw := by
  intro i hi
  obtain ⟨plan, spares, -⟩ := h i hi
  refine ⟨plan, fun n o hn => ?_, fun n o hn => ?_, fun n o y hn hy hrun => ?_⟩
  all_goals
    obtain ⟨x, hx, hrole⟩ := standsFor_eq_some.mp hn
    obtain ⟨hset, hspare, hfree, hcopy⟩ := spares n o x hx hrole
  · exact ⟨hset, hspare⟩
  · exact hfree
  · exact hx.trans (congrArg some (hcopy y hy hrun))

/-- No station held off waits, starts or runs: its requested command is STOP (R24). -/
theorem Station.stands_of_holdOff {d : Station} {x : PlanTarget} (h : d.stateLaw) (hx : d.target = some x)
    (hrole : x.role = .holdOff) : d.state ≠ .queued ∧ d.state ≠ .starting ∧ d.state ≠ .running := by
  have stop : d.requested.speed = .off := by
    unfold Station.requested
    rw [hx]
    dsimp only
    rw [hrole]
  unfold Station.stateLaw at h
  refine ⟨fun hs => ?_, fun hs => ?_, fun hs => ?_⟩ <;> rw [hs] at h
  · exact h.1 stop
  · exact h.1 stop
  · obtain ⟨heq, hrun, -⟩ := h
    exact hrun (heq ▸ stop)

theorem State.targetLaw_of_targetsLaw {s : State} (h : s.targetsLaw) (hlife : s.lifecycleLaw) : s.targetLaw := by
  intro i hi
  have law := h i hi
  refine ⟨law.plan, fun n o x hx hrole => ?_, fun n x hx hrole => Station.stands_of_holdOff (hlife.1 n) hx hrole⟩
  have stands : standsFor (s.station n).target = some o := standsFor_eq_some.mpr ⟨x, hx, hrole⟩
  obtain ⟨hset, hspare⟩ := law.named n o stands
  exact ⟨hset, hspare, law.free n o stands, fun y hy hrun => Option.some.inj (hx.symm.trans (law.copies n o y stands hy hrun))⟩

/-! ### Every part of a command -/

theorem Aside.incident {s t : State} (h : Aside s t) :
    t.incident = s.incident ∨ ∃ i x, s.incident = some i ∧ t.incident = some { i with airflow := x } := by
  cases h with
  | quiet h => rw [h.frame]; exact .inl rfl
  | phase i x h => exact .inr ⟨i, x, h, rfl⟩
  | _ => exact .inl rfl

theorem Aside.incidentLaw {s t : State} (h : Aside s t) (hs : s.incidentLaw) : t.incidentLaw := by
  obtain ⟨hpart, htarget⟩ := hs
  rcases h.incident with heq | ⟨i, x, hi, ht⟩
  · refine ⟨fun hne => heq.trans (hpart (h.part ▸ hne)), fun hnone n => ?_⟩
    rw [h.station]
    exact htarget (heq ▸ hnone) n
  · refine ⟨fun hne => ?_, fun hnone => ?_⟩
    · rw [hpart (h.part ▸ hne)] at hi
      cases hi
    · rw [ht] at hnone
      cases hnone

theorem Aside.targetsLaw {s t : State} (h : Aside s t) (hs : s.targetsLaw) : t.targetsLaw := by
  intro j hj
  have same : ∀ n, (t.station n).target = (s.station n).target := fun n => by rw [h.station]
  rcases h.incident with heq | ⟨i, x, hi, ht⟩
  · exact State.targeted_congr (hs j (heq ▸ hj)) h.still.copy same
  · rw [ht] at hj
    cases hj
    exact State.targeted_congr ((hs i hi).phase x) h.still.copy same

/-- An act is a claim, or keeps incident and setup, or comes from outside GUARD and leaves no new incident, or is the
reset. -/
theorem Act.incident {s t : State} (h : Act s t) : (s.part = .guard ∧ Claims s t)
    ∨ (t.incident = s.incident ∧ t.copy = s.copy ∧ t.part = s.part)
    ∨ (s.part ≠ .guard ∧ (t.incident = s.incident ∨ t.incident = none)) ∨ t = s.resetPart := by
  cases h with
  | claims hg h => exact .inl ⟨hg, h⟩
  | memoryGrant _ _ ht =>
    have frame := State.grantTo_frame ht
    rw [frame]
    exact .inr (.inl ⟨rfl, rfl, rfl⟩)
  | tail => exact .inr (.inl ⟨s.finish_incident, s.finish_copy, s.finish_part⟩)
  | recordHead => exact .inr (.inl ⟨s.finish_incident, s.finish_copy, s.finish_part⟩)
  | snapshotDone => exact .inr (.inl ⟨s.finish_incident, s.finish_copy, s.finish_part⟩)
  | recordDue => rw [s.recordDue_frame]; exact .inr (.inl ⟨rfl, rfl, rfl⟩)
  | overflow => rw [s.overflowTurn_frame]; exact .inr (.inl ⟨rfl, rfl, rfl⟩)
  | copied c hp => exact .inr (.inr (.inl ⟨by rw [hp]; nofun, .inl rfl⟩))
  | closeSucceeds d hp => exact .inr (.inr (.inl ⟨by rw [hp]; nofun, .inl rfl⟩))
  | guardEntry hp => exact .inr (.inr (.inl ⟨by rw [hp]; nofun, .inr rfl⟩))
  | reset => exact .inr (.inr (.inr rfl))
  | _ => exact .inr (.inl ⟨rfl, rfl, rfl⟩)

/-- Outside the claims a station without a target keeps none. -/
theorem Act.targetless {s t : State} (h : ∀ n, (s.station n).aged (t.station n)
    ∨ (t.part ≠ .guard ∧ ((∃ w, t.station n = Station.readIn w) ∨ t.station n = Station.reset)))
    (hs : ∀ n, (s.station n).target = none) (n : StationNo) : (t.station n).target = none := by
  rcases h n with aged | ⟨-, ⟨w, heq⟩ | heq⟩
  · rw [aged.frame]; exact hs n
  · rw [heq]; rfl
  · rw [heq]; rfl

theorem Claims.incidentLaw {s t : State} (h : Claims s t) (hg : s.part = .guard) (hs : s.incidentLaw) :
    t.incidentLaw ∧ (s.targetsLaw → t.targetsLaw) := by
  obtain ⟨-, htarget⟩ := hs
  have copy : t.copy = s.copy := by rw [h.claimsOnly.frame]
  have outside : t.part ≠ .guard → t.incident = none := fun hne => absurd (h.part.trans hg) hne
  rcases h.targets with ⟨hinc, hstay⟩ | ⟨i, hi, htargets⟩ | ⟨hnone, hall⟩
  · refine ⟨⟨outside, fun hn n => (hstay n).trans (htarget (hinc ▸ hn) n)⟩, fun hlaw i hi => ?_⟩
    exact State.targeted_congr (hlaw i (hinc ▸ hi)) copy hstay
  · refine ⟨⟨outside, fun hn => ?_⟩, fun hlaw j hj => ?_⟩
    · rw [hi] at hn; cases hn
    · rw [hi] at hj
      cases hj
      exact State.targeted_congr (htargets hlaw) copy fun _ => rfl
  · refine ⟨⟨outside, fun _ => hall⟩, fun _ i hi => ?_⟩
    rw [hnone] at hi
    cases hi

theorem Act.incidentLaw {s t : State} (h : Act s t) (hs : s.incidentLaw) :
    t.incidentLaw ∧ (s.targetsLaw → t.targetsLaw) := by
  rcases h.records with ⟨hg, claims⟩ | records
  · exact claims.incidentLaw hg hs
  rcases h.incident with ⟨hg, claims⟩ | unclaimed
  · exact claims.incidentLaw hg hs
  obtain ⟨hpart, htarget⟩ := hs
  have empty : t.incident = none → (∀ n, (s.station n).target = none) →
      t.incidentLaw ∧ (s.targetsLaw → t.targetsLaw) :=
    fun hn hs => ⟨⟨fun _ => hn, fun _ => Act.targetless records hs⟩, fun _ i hi => by rw [hn] at hi; cases hi⟩
  rcases unclaimed with ⟨hinc, hcopy, htp⟩ | ⟨hne, hinc⟩ | rfl
  · cases hi : s.incident with
    | none => exact empty (hinc.trans hi) (htarget hi)
    | some i =>
      have hg : t.part = .guard := by
        rw [htp]
        by_contra hne
        rw [hpart hne] at hi
        cases hi
      have stay : ∀ n, (t.station n).target = (s.station n).target := fun n => by
        rcases records n with aged | ⟨hne, -⟩
        · rw [aged.frame]
        · exact absurd hg hne
      refine ⟨⟨fun hne => absurd hg hne, fun hn => ?_⟩, fun hlaw j hj => ?_⟩
      · rw [hinc, hi] at hn; cases hn
      · exact State.targeted_congr (hlaw j (hinc ▸ hj)) hcopy stay
  · have none := hpart hne
    refine empty ?_ (htarget none)
    rcases hinc with h | h
    · exact h.trans none
    · exact h
  · have reset : ∀ n, s.resetPart.station n = Station.reset := fun n => Table.nth_replicate _ _
    exact ⟨⟨fun _ => rfl, fun _ n => by rw [reset]; rfl⟩, fun _ => nofun⟩

theorem Aside.alarmsLaw {s t : State} (h : Aside s t) (hs : s.alarms.law) : t.alarms.law := by
  cases h with
  | quiet h => rw [h.frame]; exact hs
  | alarms a ha => exact ha hs
  | _ => exact hs

theorem Act.alarmsLaw {s t : State} (h : Act s t) (hs : s.alarms.law) : t.alarms.law := by
  cases h with
  | claims _ h => rw [h.claimsOnly.frame]; exact hs
  | memoryGrant _ _ ht =>
    have frame := State.grantTo_frame ht
    rw [frame]
    exact hs
  | tick => exact AlarmEscalator.law_tick hs
  | tail => exact s.finish_alarms ▸ hs
  | recordHead => exact s.finish_alarms ▸ hs
  | snapshotDone => exact s.finish_alarms ▸ hs
  | recordDue => rw [s.recordDue_frame]; exact hs
  | overflow => rw [s.overflowTurn_frame]; exact hs
  | guardEntry => exact AlarmEscalator.law_reset
  | reset => exact AlarmEscalator.law_reset
  | _ => exact hs

/-- Settles O53: only the incident controller's claims change targets, and each leaves those of its incident; the third
clause of the target law is the lifecycle's, in which a station asked to STOP neither waits nor runs. -/
theorem everyStepKeepsTheIncidentLaw : Obligations.EveryStepKeepsTheIncidentLaw := by
  refine ⟨fun s t hs hstep => ?_, fun s t hs hq hlife htarget hstep => ?_, fun s t hs hstep => ?_⟩
  · exact step_keeps (P := State.incidentLaw) (fun _ _ h => h) (fun h hs => h.incidentLaw hs)
      (fun h hs => (h.incidentLaw hs).1) hstep hs
  · have targets := step_keeps (P := fun u => u.incidentLaw ∧ u.targetsLaw) (fun _ _ h => ⟨h.1, fun i hi => ?_⟩)
      (fun h hs => ⟨h.incidentLaw hs.1, h.targetsLaw hs.2⟩)
      (fun h hs => ⟨(h.incidentLaw hs.1).1, (h.incidentLaw hs.1).2 hs.2⟩) hstep
      ⟨hs, State.targetsLaw_of_targetLaw htarget⟩
    · exact State.targetLaw_of_targetsLaw targets.2 (step_lifecycleLaw hq hlife hstep)
    · exact State.targeted_congr (h.2 i hi) rfl fun _ => rfl
  · exact step_keeps (P := fun u => u.alarms.law) (fun _ _ h => h) (fun h hs => h.alarmsLaw hs)
      (fun h hs => h.alarmsLaw hs) hstep hs

end Sys2Proof.Machine
end

section
/-! PROOF. The step, the clock and the reset (O1, O3, O4, O5, O60). -/

namespace Sys2Proof.Machine

open Sys2Proof

/-- Settles O1: the two cases of the queue. -/
theorem stepRunsTheFrontCommand : Obligations.StepRunsTheFrontCommand := by
  refine ⟨fun c rest s h => ?_, fun s h => ?_⟩ <;> unfold step <;> rw [h]

/-! ### The clock (R1) -/

/-- A tenth waits for the timers that stand at 0. -/
theorem State.expiryDue_iff (s : State) : s.expiryDue = true ↔ (∃ n, (s.station n).timer = some 0)
    ∨ (∃ f, (s.feeder f).spacing = some 0 ∨ (s.feeder f).restore = some 0)
    ∨ (∃ k, (s.source k).age = some 0)
    ∨ s.airflow.hold = some 0 ∨ s.airflow.deadline = some 0 ∨ s.alarms.stage = some 0 := by
  unfold State.expiryDue
  simp [Timer.due_iff, allStations, or_assoc]

/-- Settles O5: outside GUARD and with an expiry due nothing happens; otherwise every table is changed record by
record. -/
theorem tickRaisesTheTimeStamp : Obligations.TickRaisesTheTimeStamp := by
  refine ⟨fun s h => congrArg _ (if_neg h), fun s h => ?_⟩
  have ticked : exec .timeStampTick s = .next s.timeStampTick := congrArg _ (inGuard_of h _)
  refine ⟨fun due => ?_, fun undue => ⟨s.tick, ?_, ?_, ?_, fun n => ?_, fun f => ?_, fun k => ?_⟩⟩
  · rw [ticked, State.timeStampTick, if_pos (s.expiryDue_iff.mpr due)]
  · rw [ticked, State.timeStampTick, if_neg (mt s.expiryDue_iff.mp undue)]
  · exact BitVec.ofNat_add _ _
  · rfl
  · exact Table.nth_mapAll _ _ _
  · exact Table.nth_mapAll _ _ _
  · exact Table.nth_mapAll _ _ _

/-! ### The reset -/

theorem State.station_reset (n : StationNo) : State.reset.station n = Station.reset := Table.nth_replicate _ _

theorem State.feeder_reset (f : FeederNo) : State.reset.feeder f = Feeder.reset := Table.nth_replicate _ _

/-- After the reset no station has left OFF, no queue holds an entry and no slot is in use. -/
theorem State.reset_idle : State.reset.idle ∧ State.reset.slotsFree := by
  refine ⟨⟨fun n => .inl ?_, fun f => ?_⟩, fun f => ?_⟩
  · rw [State.station_reset]; rfl
  · rw [State.feeder_reset]; rfl
  · rw [State.feeder_reset]; rfl

theorem State.reset_lifecycleLaw : State.reset.lifecycleLaw := by
  refine ⟨fun n => ?_, fun f e he => ?_⟩
  · rw [State.station_reset]
    exact ⟨rfl, rfl, rfl⟩
  · rw [State.reset_idle.1.2 f] at he
    cases he

theorem State.reset_workListLaw : State.reset.workListLaw :=
  State.reset.workListLaw_iff.mpr ⟨ImageWriter.listed_of_uncounted nofun rfl, ⟨nofun, nofun⟩, fun _ => nofun⟩

theorem State.reset_ringLaw : State.reset.ringLaw := State.reset.ringLaw_iff.mpr ⟨⟨nofun, fun _ => nofun⟩, nofun⟩

/-- Settles O60, law by law: stations and feeders hold their reset records, the lists are empty. -/
theorem lawsHoldAtReset : Obligations.LawsHoldAtReset := by
  obtain ⟨idle, free⟩ := State.reset_idle
  have outLaw : State.reset.outLaw := fun n => by rw [State.station_reset]; exact Station.outLaw_reset
  have writeBackLaw : State.reset.writeBackLaw := fun n => by rw [State.station_reset]; rfl
  exact ⟨⟨rfl, rfl⟩, ⟨Nat.zero_le _, Nat.zero_le _, Nat.zero_le _, Nat.zero_le _⟩, State.reset_ringLaw,
    ⟨fun _ => rfl, fun _ n => congrArg Station.target (State.station_reset n)⟩, nofun, AlarmEscalator.law_reset,
    idle.queueLaw, idle.orderLaw, idle.slotLaw free, free.slotBound, outLaw, State.reset_lifecycleLaw, writeBackLaw,
    State.reset_workListLaw, ⟨fun _ => rfl, rfl⟩, Arbiter.fair_reset⟩

/-- Settles O4: tables hold their reset record everywhere. -/
theorem resetValues : Obligations.ResetValues := by
  refine ⟨rfl, fun _ => rfl, rfl, rfl, fun n => ?_, fun f => ?_, fun k => ?_, rfl, rfl, rfl, rfl, rfl, fun n => ?_,
    fun g => ?_, rfl, rfl, rfl, rfl, fun r => ?_, fun n => ?_, rfl, rfl⟩
  · exact Table.nth_replicate _ _
  · exact Table.nth_replicate _ _
  · exact Table.nth_replicate _ _
  · exact Table.nth_replicate _ _
  · exact Table.nth_replicate _ _
  · cases r <;> rfl
  · exact Table.nth_replicate _ _

/-! ### RESET (R174) -/

theorem State.port_resetPart (s : State) (p : Port) : s.resetPart.port p = (s.readAtReset.port p).afterReset := by
  cases p <;> rfl

/-- A port under the reset, when its read is not under way. -/
theorem State.port_readAtReset_of_idle {s : State} {p : Port} (h : s.flightOwner ≠ some (.portRead p)) :
    s.readAtReset.port p = s.port p := by
  unfold State.readAtReset
  split
  · next q ho =>
    have hne : p ≠ q := fun heq => h (heq ▸ ho)
    exact State.port_withPort_ne s _ hne
  · rfl

theorem State.port_readAtReset_of_read {s : State} {p : Port} {q : Requester} {a : Nat}
    (h : s.inFlight = some { requester := q, transfer := .read a, owner := .portRead p }) :
    s.readAtReset.port p = { s.port p with read := none, readData := some (s.mem.readWord a) } := by
  unfold State.readAtReset State.returnRead
  rw [s.flightOwner_of h, s.flightWord_of h]
  exact State.port_withPort_self s _ _

/-- A port's read, held access and last data under the reset. -/
theorem State.readAtReset_port (s : State) (p : Port) : ∃ r d, s.readAtReset.port p = { s.port p with read := r, readData := d } := by
  unfold State.readAtReset
  split
  · next q ho =>
    by_cases heq : p = q
    · subst heq
      exact ⟨_, _, State.port_withPort_self s _ _⟩
    · exact ⟨_, _, State.port_withPort_ne s _ heq⟩
  · exact ⟨_, _, rfl⟩

theorem PortState.afterReset_disposed (x : PortState) : x.afterReset.disposed = none :=
  (PortState.release_buffer { x with buffer := [], disposed := none }).1

theorem PortState.afterReset_of_none {x : PortState} (h : x.held = none) :
    x.afterReset = { x with buffer := [], disposed := none } := by
  unfold PortState.afterReset PortState.release
  dsimp only
  rw [h]

theorem PortState.afterReset_of_write {x : PortState} {w : PortWrite} (h : x.held = some (.write w)) :
    x.afterReset = { x with buffer := [w], disposed := none, held := none } := by
  unfold PortState.afterReset PortState.release
  dsimp only
  rw [h]
  rfl

theorem PortState.afterReset_of_read {x : PortState} {a : Addr} (h : x.held = some (.read a)) :
    x.afterReset = if x.read.isSome then { x with buffer := [], disposed := none }
      else { x with buffer := [], disposed := none, held := none, read := some a } := by
  unfold PortState.afterReset PortState.release
  dsimp only
  rw [h]

/-- A read not begun stays at its port. -/
theorem PortState.afterReset_read {x : PortState} {a : Addr} (h : x.read = some a) : x.afterReset.read = some a := by
  cases hheld : x.held with
  | none => rw [PortState.afterReset_of_none hheld]; exact h
  | some y =>
    cases y with
    | write w => rw [PortState.afterReset_of_write hheld]; exact h
    | read b => rw [PortState.afterReset_of_read hheld, h]; rfl

theorem PortState.afterReset_readData (x : PortState) : x.afterReset.readData = x.readData := by
  cases hheld : x.held with
  | none => rw [PortState.afterReset_of_none hheld]
  | some y =>
    cases y with
    | write w => rw [PortState.afterReset_of_write hheld]
    | read b => rw [PortState.afterReset_of_read hheld]; split <;> rfl

/-- Settles O3: each port by what it holds, and by whether its read is under way. -/
theorem resetReturnsThePartToCapture : Obligations.ResetReturnsThePartToCapture := by
  intro s
  refine ⟨s.resetPart, rfl, Completed.of_finish rfl rfl, rfl, fun p => ?_⟩
  rw [State.port_resetPart]
  obtain ⟨r, d, hport⟩ := s.readAtReset_port p
  have held : (s.readAtReset.port p).held = (s.port p).held := by rw [hport]
  refine ⟨PortState.afterReset_disposed _, fun h => ?_, fun w h => ?_, fun a h hr => ?_, fun a h ho => ?_, fun ho => ?_,
    fun q a hf => ⟨?_, fun hnone => ?_, fun b h => ?_⟩⟩
  · rw [PortState.afterReset_of_none (held.trans h)]
    exact ⟨rfl, held.trans h⟩
  · rw [PortState.afterReset_of_write (held.trans h)]
    exact ⟨rfl, rfl⟩
  · have read : (s.readAtReset.port p).read = none := by
      by_cases ho : s.flightOwner = some (.portRead p)
      · unfold State.readAtReset
        rw [ho]
        show ((s.withPort p _).port p).read = none
        rw [State.port_withPort_self]
      · rw [State.port_readAtReset_of_idle ho]; exact hr
    rw [PortState.afterReset_of_read (held.trans h), read]
    exact ⟨rfl, rfl, rfl⟩
  · rw [State.port_readAtReset_of_idle ho]
    exact PortState.afterReset_read h
  · rw [State.port_readAtReset_of_idle ho]
    exact PortState.afterReset_readData _
  · rw [PortState.afterReset_readData, State.port_readAtReset_of_read hf]
  · have read : (s.readAtReset.port p).read = none := by rw [State.port_readAtReset_of_read hf]
    cases hheld : (s.port p).held with
    | none => rw [PortState.afterReset_of_none (held.trans hheld)]; exact read
    | some y =>
      cases y with
      | write w => rw [PortState.afterReset_of_write (held.trans hheld)]; exact read
      | read b => exact absurd hheld (hnone b)
  · have read : (s.readAtReset.port p).read = none := by rw [State.port_readAtReset_of_read hf]
    rw [PortState.afterReset_of_read (held.trans h), read]
    rfl

end Sys2Proof.Machine
end

section
/-! PROOF. The ports: presenting an access, the disposition of a head write, and the window decoder (O6-O11). -/

namespace Sys2Proof.Machine

open Sys2Proof

/-! ### Presenting an access (R158, R160, R161, R173) -/

theorem PortState.room_iff (x : PortState) : x.room = true ↔ x.buffer.length < 8 := decide_eq_true_iff

theorem PortState.room_eq_false_iff (x : PortState) : x.room = false ↔ 8 ≤ x.buffer.length := by
  unfold PortState.room Config.bufferDepth
  rw [decide_eq_false_iff_not, not_lt]

theorem PortState.take_write_of_room {x : PortState} (w : PortWrite) (h : x.buffer.length < 8) :
    x.take (.write w) = { x with buffer := x.buffer ++ [w] } := if_pos (x.room_iff.mpr h)

theorem PortState.take_write_of_full {x : PortState} (w : PortWrite) (h : 8 ≤ x.buffer.length) :
    x.take (.write w) = { x with held := some (.write w) } :=
  if_neg (by rw [x.room_iff]; omega)

/-- A master that waits for nothing presents its access. -/
theorem State.presentAccess_of_idle {s : State} {p : Port} (hheld : (s.port p).held = none)
    (hread : (s.port p).read = none) (a : PortAccess) : s.presentAccess p a =
      if s.part = .entering then s.withPort p { s.port p with held := some a } else s.withPort p ((s.port p).take a) := by
  unfold State.presentAccess
  dsimp only
  rw [hheld, hread]
  rfl

/-- A master that still waits presents nothing. -/
theorem State.presentAccess_of_waiting {s : State} {p : Port} (h : (s.port p).held ≠ none ∨ (s.port p).read ≠ none)
    (a : PortAccess) : s.presentAccess p a = s := by
  unfold State.presentAccess
  refine if_pos ?_
  rwa [Bool.or_eq_true, Option.isSome_iff_ne_none, Option.isSome_iff_ne_none]

/-- Settles O6: both forms of the access a port takes. -/
theorem portTakesAnAccess : Obligations.PortTakesAnAccess := by
  intro p s hheld hread hpart
  have taken : ∀ a, exec (.portWrite p a) s = .next (s.withPort p ((s.port p).take a)) := fun a => by
    show Host.Outcome.next (s.presentAccess p a) = _
    rw [State.presentAccess_of_idle hheld hread, if_neg hpart]
  exact ⟨fun w hroom => by rw [taken, PortState.take_write_of_room w hroom], fun a => taken _⟩

theorem PortState.release_of_write {x : PortState} {w : PortWrite} (h : x.held = some (.write w)) :
    x.release = if x.room then { x with held := none, buffer := x.buffer ++ [w] } else x := by
  unfold PortState.release
  rw [h]

theorem PortState.release_of_read {x : PortState} {b : Addr} (h : x.held = some (.read b)) (hread : x.read = none) :
    x.release = { x with held := none, read := some b } := by
  unfold PortState.release
  rw [h, hread]
  rfl

theorem PortState.release_of_none {x : PortState} (h : x.held = none) : x.release = x := by
  unfold PortState.release
  rw [h]

theorem exec_heldWriteAccepted_of_open {s : State} (p : Port) (h : s.part ≠ .entering) :
    exec (.heldWriteAccepted p) s = .next (s.withPort p (s.port p).release) := congrArg _ (if_neg h)

/-- Settles O7: what is held stays held without room or in ENTERING. -/
theorem fullPortHoldsAWrite : Obligations.FullPortHoldsAWrite := by
  refine ⟨fun p w s => ⟨fun hheld hread hfull => ?held, fun hheld hpart hroom => ?enters, fun hheld hpart hfull => ?full,
    fun hpart => congrArg _ (if_pos hpart)⟩, fun p a s => ⟨rfl, fun hheld hread hpart => ?entering,
    fun hwaits => congrArg _ (State.presentAccess_of_waiting hwaits a), fun b hheld hread hpart => ?read⟩⟩
  case held =>
    show Host.Outcome.next (s.presentAccess p _) = _
    rw [State.presentAccess_of_idle hheld hread]
    split
    · rfl
    · next hpart => rw [PortState.take_write_of_full w (hfull.resolve_left hpart)]
  case enters =>
    rw [exec_heldWriteAccepted_of_open p hpart, PortState.release_of_write hheld,
      if_pos ((s.port p).room_iff.mpr hroom)]
  case full =>
    rw [exec_heldWriteAccepted_of_open p hpart, PortState.release_of_write hheld,
      (s.port p).room_eq_false_iff.mpr hfull, if_neg nofun, State.withPort_self]
  case entering =>
    show Host.Outcome.next (s.presentAccess p a) = _
    rw [State.presentAccess_of_idle hheld hread, if_pos hpart]
  case read => rw [exec_heldWriteAccepted_of_open p hpart, PortState.release_of_read hheld hread]

/-! ### The disposition of a head write (R159, R165, R172) -/

theorem writeFull_iff (w : PortWrite) : writeFull w = true ↔ w.enables = 15 := beq_iff_eq

theorem fullOr_of_full {w : PortWrite} (h : w.enables = 15) (d : Disposition) : fullOr w d = d :=
  if_pos ((writeFull_iff w).mpr h)

theorem fullOr_of_partial {w : PortWrite} (h : w.enables ≠ 15) (d : Disposition) : fullOr w d = .refuse .partialLanes :=
  if_neg (mt (writeFull_iff w).mp h)

/-- Outside ENTERING a head write without a disposition is given one. -/
theorem State.writeDisposition_of_head {s : State} {p : Port} {w : PortWrite} {rest : List PortWrite}
    (hpart : s.part ≠ .entering) (hbuffer : (s.port p).buffer = w :: rest) (hnone : (s.port p).disposed = none) :
    s.writeDisposition p = s.disposed p w rest (s.disposition p w) := by
  unfold State.writeDisposition
  rw [hbuffer]
  exact if_pos ⟨hpart, hnone⟩

/-- In ENTERING no head is given a disposition (R173). -/
theorem State.writeDisposition_of_entering {s : State} (p : Port) (h : s.part = .entering) : s.writeDisposition p = s := by
  unfold State.writeDisposition
  split
  · rfl
  · exact if_neg (fun both => both.1 h)

/-- Outside GUARD COMMAND_WRITE does nothing. -/
theorem State.commandWrite_of_outside {s : State} (h : s.part ≠ .guard) : s.commandWrite = s := by
  unfold State.commandWrite
  split
  · rfl
  · split
    · exact if_neg h
    · rfl

theorem captureDisposition_eq (p : Port) (w : PortWrite) : captureDisposition p w = .pass
    (if p = .scanner then .plain
    else if 0xFC000 ≤ w.addr.toNat / 4 * 4 ∧ w.addr.toNat / 4 * 4 < 0xFE000 then .setup
    else if w.addr.toNat / 4 * 4 = 0xFFFFC ∧ w.enables = 15 then .close
    else .plain) := by
  have block : inSetupBlock (w.addr.toNat / 4 * 4) = true
      ↔ 0xFC000 ≤ w.addr.toNat / 4 * 4 ∧ w.addr.toNat / 4 * 4 < 0xFE000 := by
    rw [inSetupBlock, Bool.and_eq_true, decide_eq_true_iff, decide_eq_true_iff]
  unfold captureDisposition
  cases p with
  | scanner => rfl
  | control =>
    simp only [writeAt_eq, block, closeAddr, writeFull_iff, reduceCtorEq, if_false]
    rw [apply_ite Disposition.pass, apply_ite Disposition.pass]

/-- A passing write in CAPTURE changes nothing but its mark, for no write to the ring's tail is decoded there. -/
theorem State.disposed_pass_of_ne_tail {s : State} {k : PassKind} (h : k ≠ .tail) (p : Port) (w : PortWrite)
    (rest : List PortWrite) :
    s.disposed p w rest (.pass k) = s.withPort p { s.port p with disposed := some k } := by
  unfold State.disposed
  dsimp only
  rw [ImageWriter.checkTail, if_neg h]
  rfl

/-- Settles O8: in CAPTURE the disposition is the capture one, in ENTERING there is none. -/
theorem capturePassesEveryWrite : Obligations.CapturePassesEveryWrite := by
  refine ⟨fun p w rest s hpart hbuffer hnone => ?_, fun p s hpart => ⟨congrArg _ (State.writeDisposition_of_entering p hpart),
    congrArg _ (State.commandWrite_of_outside (by rw [hpart]; nofun))⟩⟩
  have decoded : s.disposition p w = captureDisposition p w := if_neg (by rw [hpart]; nofun)
  have written : exec (.writeDisposition p) s = .next (s.writeDisposition p) := rfl
  rw [written, State.writeDisposition_of_head (by rw [hpart]; nofun) hbuffer hnone, decoded, captureDisposition_eq,
    State.disposed_pass_of_ne_tail]
  split
  · nofun
  · split
    · nofun
    · split <;> nofun

/-! ### Refusals and passes in GUARD -/

theorem State.disposition_of_guard {s : State} (h : s.part = .guard) (p : Port) (w : PortWrite) :
    s.disposition p w = s.guardDisposition p w := if_pos h

theorem exec_writeDisposition_of_guard {s : State} {p : Port} {w : PortWrite} {rest : List PortWrite}
    (hpart : s.part = .guard) (hbuffer : (s.port p).buffer = w :: rest) (hnone : (s.port p).disposed = none) :
    exec (.writeDisposition p) s = .next (s.disposed p w rest (s.guardDisposition p w)) := by
  have written : exec (.writeDisposition p) s = .next (s.writeDisposition p) := rfl
  rw [written, State.writeDisposition_of_head (by rw [hpart]; nofun) hbuffer hnone, State.disposition_of_guard hpart]

theorem accessRefusedRecord_eq (s : State) (p : Port) (w : PortWrite) (r : Reason) : accessRefusedRecord s p w r =
    { kind := .accessRefused, stamp := s.stamp, subject := BitVec.ofNat 32 (w.addr.toNat / 4 * 4)
      detailA := BitVec.ofNat 16 r.code, detailB := if p = .control then 0 else 1 } := by
  unfold accessRefusedRecord
  rw [writeAt_eq]
  cases p <;> rfl

/-- Settles O9: the two outcomes of the window decoder, record and mark written out. -/
theorem headWriteIsRefusedOrWaits : Obligations.HeadWriteIsRefusedOrWaits := by
  refine ⟨fun p w rest s hpart hbuffer hnone => ⟨fun harea => ?_, fun r hr => ?_⟩, fun p w rest k s hpart hbuffer hnone hk => ?_⟩
  · exact if_pos (decide_eq_true (by rwa [writeAt_eq]))
  · rw [exec_writeDisposition_of_guard hpart hbuffer hnone, hr, ← accessRefusedRecord_eq]
    rfl
  · rw [exec_writeDisposition_of_guard hpart hbuffer hnone, hk]
    rfl

end Sys2Proof.Machine
end

section
/-! PROOF. The window decoder (O10, O11). -/

namespace Sys2Proof.Machine

open Sys2Proof

/-! ### The window table (R162, 12.6) -/

theorem bits_all (w : Word) : bits w 31 0 = w.toNat := by
  unfold bits
  rw [Nat.pow_zero, Nat.div_one]
  exact Nat.mod_eq_of_lt w.isLt

theorem bits_lowest (w : Word) : bits w 0 0 = w.toNat % 2 := congrArg (· % 2) (Nat.div_one w.toNat)

theorem bits_low_pair (w : Word) : bits w 1 0 = w.toNat % 4 := congrArg (· % 4) (Nat.div_one w.toNat)

/-- A window's fields, field by field from the entry's words of the copy. -/
def Setup.windowFields (c : Cells Word) (i : Nat) : Window where
  base := bits (Setup.word c (16 + 4 * i)) 31 0
  size := bits (Setup.word c (17 + 4 * i)) 31 0
  kind := Setup.windowKindOf (bits (Setup.word c (18 + 4 * i)) 7 0)
  readOnlyControl := decide (bits (Setup.word c (18 + 4 * i)) 8 8 = 1)
  readOnlyScanner := decide (bits (Setup.word c (18 + 4 * i)) 9 9 = 1)

theorem Setup.window_eq_fields (c : Cells Word) (i : Nat) : Setup.window c i = Setup.windowFields c i := by
  have second : 16 + 4 * i + 1 = 17 + 4 * i := by omega
  have third : 16 + 4 * i + 2 = 18 + 4 * i := by omega
  unfold Setup.window Setup.windowFields Setup.windowOffset
  rw [bits_all, bits_all, second, third]
  rfl

/-- The first of the numbered entries that passes a test. -/
theorem find?_map_range_eq_some {α : Type} (n : Nat) (g : Nat → α) (p : α → Bool) (x : α) :
    ((List.range n).map g).find? p = some x ↔ ∃ i, i < n ∧ x = g i ∧ p (g i) = true ∧ ∀ j, j < i → ¬p (g j) = true := by
  rw [List.find?_map, Option.map_eq_some_iff]
  refine exists_congr fun i => ?_
  rw [List.find?_range_eq_some]
  simp only [Function.comp, List.mem_range, Bool.not_eq_true', Bool.not_eq_true]
  constructor
  · rintro ⟨⟨hp, hi, before⟩, rfl⟩
    exact ⟨hi, rfl, hp, before⟩
  · rintro ⟨hi, rfl, hp, before⟩
    exact ⟨⟨hp, hi, before⟩, rfl⟩

theorem find?_map_range_eq_none {α : Type} (n : Nat) (g : Nat → α) (p : α → Bool) :
    ((List.range n).map g).find? p = none ↔ ∀ i, i < n → ¬p (g i) = true := by
  simp [List.find?_eq_none]

theorem Setup.covers_iff (x : Window) (a : Nat) :
    (decide (x.base ≤ a) && decide (a < x.base + x.size)) = true ↔ x.base ≤ a ∧ a < x.base + x.size := by
  rw [Bool.and_eq_true, decide_eq_true_iff, decide_eq_true_iff]

theorem Setup.windowAt_eq_some (c : Cells Word) (a : Nat) (x : Window) : Setup.windowAt c a = some x ↔
    ∃ i, i < Setup.windowCount c ∧ x = Setup.windowFields c i
      ∧ ((Setup.windowFields c i).base ≤ a ∧ a < (Setup.windowFields c i).base + (Setup.windowFields c i).size)
      ∧ ∀ j, j < i →
        ¬((Setup.windowFields c j).base ≤ a ∧ a < (Setup.windowFields c j).base + (Setup.windowFields c j).size) := by
  have table : Setup.window c = Setup.windowFields c := funext (Setup.window_eq_fields c)
  unfold Setup.windowAt Setup.windows
  rw [find?_map_range_eq_some, table]
  simp only [Setup.covers_iff]

theorem Setup.windowAt_eq_none (c : Cells Word) (a : Nat) : Setup.windowAt c a = none ↔
    ∀ i, i < Setup.windowCount c →
      ¬((Setup.windowFields c i).base ≤ a ∧ a < (Setup.windowFields c i).base + (Setup.windowFields c i).size) := by
  have table : Setup.window c = Setup.windowFields c := funext (Setup.window_eq_fields c)
  unfold Setup.windowAt Setup.windows
  rw [find?_map_range_eq_none, table]
  simp only [Setup.covers_iff]

theorem Setup.windowOf_eq_some (c : Cells Word) (k : WindowKind) (x : Window) : Setup.windowOf c k = some x ↔
    ∃ i, i < Setup.windowCount c ∧ x = Setup.windowFields c i ∧ x.kind = some k
      ∧ ∀ j, j < i → (Setup.windowFields c j).kind ≠ some k := by
  have table : Setup.window c = Setup.windowFields c := funext (Setup.window_eq_fields c)
  unfold Setup.windowOf Setup.windows
  rw [find?_map_range_eq_some, table]
  simp only [beq_iff_eq]
  refine exists_congr fun i => and_congr_right fun _ => ⟨?_, ?_⟩
  · rintro ⟨rfl, rest⟩
    exact ⟨rfl, rest⟩
  · rintro ⟨rfl, rest⟩
    exact ⟨rfl, rest⟩

theorem Setup.baseOf_of_window {c : Cells Word} {k : WindowKind} {x : Window} (h : Setup.windowOf c k = some x) :
    Setup.baseOf c k = x.base := by
  unfold Setup.baseOf
  rw [h]

/-- The capacity of the ring by the size of the REPORT window (R181). -/
theorem Setup.capacity_of_size {c : Cells Word} {x : Window} (h : Setup.windowOf c .report = some x) :
    (x.size = 512 → Setup.capacity c = 31) ∧ (x.size = 1024 → Setup.capacity c = 63)
      ∧ (x.size = 2048 → Setup.capacity c = 127) ∧ (4096 ≤ x.size → Setup.capacity c = 255) := by
  have sized : Setup.capacity c =
      if 4096 ≤ x.size then 255 else if 2048 ≤ x.size then 127 else if 1024 ≤ x.size then 63 else 31 := by
    unfold Setup.capacity
    rw [h]
  rw [sized]
  refine ⟨fun hx => ?_, fun hx => ?_, fun hx => ?_, fun hx => if_pos hx⟩
  · rw [hx]; rfl
  · rw [hx]; rfl
  · rw [hx]; rfl

/-! ### The range of a tail (R191) -/

/-- How far a slot of the ring stands from another, counting forward. -/
theorem fromTail_iff {cap ring x i : Nat} (hr : ring < cap) (hx : x < cap) (hi : i < cap) :
    (ring + i) % cap = x ↔ fromTail cap ring x = i := by
  rw [fromTail_eq hr hx]
  by_cases hlt : ring + i < cap
  · rw [Nat.mod_eq_of_lt hlt]
    split <;> omega
  · have wraps : (ring + i) % cap = ring + i - cap := by
      rw [Nat.mod_eq_sub_mod (by omega), Nat.mod_eq_of_lt (by omega)]
    rw [wraps]
    split <;> omega

/-- A tail is in range when counting forward from the checked tail reaches it no later than the head. -/
theorem State.tailInRange_iff {s : State} (hhead : s.writer.head < Setup.capacity s.copy)
    (hchecked : s.writer.checkedTail < Setup.capacity s.copy) (t : Nat) : s.tailInRange t = true ↔
      t < Setup.capacity s.copy ∧ ∃ i j, i ≤ j ∧ j < Setup.capacity s.copy
        ∧ (s.writer.checkedTail + j) % Setup.capacity s.copy = s.writer.head
        ∧ (s.writer.checkedTail + i) % Setup.capacity s.copy = t := by
  unfold State.tailInRange
  rw [Bool.and_eq_true, decide_eq_true_iff, decide_eq_true_iff, ringDiff_eq hchecked, ringDiff_eq hchecked]
  refine and_congr_right fun ht => ⟨fun hle => ?_, ?_⟩
  · exact ⟨_, _, hle, fromTail_lt hchecked, (fromTail_iff hchecked hhead (fromTail_lt hchecked)).mpr rfl,
      (fromTail_iff hchecked ht (fromTail_lt hchecked)).mpr rfl⟩
  · rintro ⟨i, j, hij, hj, toHead, toTail⟩
    rw [(fromTail_iff hchecked hhead hj).mp toHead, (fromTail_iff hchecked ht (by omega)).mp toTail]
    exact hij

/-! ### The table of R164 -/

/-- A write below the setup area is decoded by the window that covers it. -/
theorem State.guardDisposition_of_window {s : State} {w : PortWrite} {x : Window} {k : WindowKind}
    (harea : w.addr.toNat / 4 * 4 < 0xFC000) (hx : Setup.windowAt s.copy (w.addr.toNat / 4 * 4) = some x)
    (hk : x.kind = some k) :
    s.guardDisposition .control w = s.controlDisposition w x k
      ∧ s.guardDisposition .scanner w = scannerDisposition w x k := by
  have outside : inSetupArea (writeAt w) = false := by
    rw [writeAt_eq]
    exact decide_eq_false (by omega)
  unfold State.guardDisposition State.windowDisposition
  rw [outside, writeAt_eq, hx]
  dsimp only
  rw [hk]
  exact ⟨rfl, rfl⟩

theorem State.guardDisposition_of_none {s : State} {w : PortWrite} (harea : w.addr.toNat / 4 * 4 < 0xFC000)
    (hnone : Setup.windowAt s.copy (w.addr.toNat / 4 * 4) = none) (p : Port) : s.guardDisposition p w = .pass .plain := by
  have outside : inSetupArea (writeAt w) = false := by
    rw [writeAt_eq]
    exact decide_eq_false (by omega)
  unfold State.guardDisposition
  rw [outside, writeAt_eq, hnone]
  rfl

theorem feedbackDisposition_of_source {w : PortWrite} {offset : Nat} (hfull : w.enables = 15) {k : SourceNo}
    (h : offset / 4 = k.val) : feedbackDisposition w offset = .pass (.source k) := by
  have source : (⟨offset / 4, h ▸ k.isLt⟩ : SourceNo) = k := Fin.ext h
  unfold feedbackDisposition
  rw [fullOr_of_full hfull, dif_pos (h ▸ k.isLt), source]

theorem feedbackDisposition_of_above {w : PortWrite} {offset : Nat} (hfull : w.enables = 15) (h : 112 ≤ offset / 4) :
    feedbackDisposition w offset = .pass .plain := by
  unfold feedbackDisposition
  rw [fullOr_of_full hfull, dif_neg (by omega)]

theorem mailboxDisposition_of_partial {w : PortWrite} {offset : Nat} (hpart : w.enables ≠ 15) (h : offset / 4 ≤ 6) :
    mailboxDisposition w offset = .refuse .partialLanes := by
  unfold mailboxDisposition
  split
  · exact fullOr_of_partial hpart _
  · rw [dif_pos (by omega)]
    exact fullOr_of_partial hpart _

theorem mailboxDisposition_of_request {w : PortWrite} {offset : Nat} (hfull : w.enables = 15) (h : offset / 4 = 0) :
    mailboxDisposition w offset = .pass .request := by
  unfold mailboxDisposition
  rw [if_pos h, fullOr_of_full hfull]

theorem mailboxDisposition_of_argument {w : PortWrite} {offset : Nat} (hfull : w.enables = 15) {n : Fin 6}
    (h : offset / 4 = n.val + 1) : mailboxDisposition w offset = .pass (.argument n) := by
  have below : offset / 4 - 1 < 6 := by omega
  have argument : (⟨offset / 4 - 1, below⟩ : Fin 6) = n := Fin.ext (by dsimp only; omega)
  unfold mailboxDisposition
  rw [if_neg (by omega), dif_pos below, fullOr_of_full hfull, argument]

theorem mailboxDisposition_of_reply {w : PortWrite} {offset : Nat} (h : offset / 4 = 7) :
    mailboxDisposition w offset = .refuse .readOnly := by
  unfold mailboxDisposition
  rw [if_neg (by omega), dif_neg (by omega), if_pos h]

theorem mailboxDisposition_of_above {w : PortWrite} {offset : Nat} (h : 8 ≤ offset / 4) :
    mailboxDisposition w offset = .pass .plain := by
  unfold mailboxDisposition
  rw [if_neg (by omega), dif_neg (by omega), if_neg (by omega)]

theorem State.reportDisposition_of_header (s : State) (w : PortWrite) {offset : Nat} (h : offset / 4 ≠ 1) :
    s.reportDisposition w offset = .refuse .readOnly := if_neg h

theorem State.reportDisposition_of_tail (s : State) (w : PortWrite) {offset : Nat} (h : offset / 4 = 1) :
    s.reportDisposition w offset =
      fullOr w (if s.tailInRange w.data.toNat then .pass .tail else .refuse .badTail) := if_pos h

/-- Settles O10: the window table by its entries, and the disposition by window, port and word. -/
theorem windowDispositions : Obligations.WindowDispositions := by
  refine ⟨fun c a => ⟨Setup.windowAt_eq_some c a, Setup.windowAt_eq_none c a,
    fun k => ⟨Setup.windowOf_eq_some c k, fun x => Setup.baseOf_of_window⟩⟩, fun s w harea =>
    ⟨State.guardDisposition_of_none harea, fun x => Setup.capacity_of_size, fun x hx => ?_⟩⟩
  have decoded : ∀ {k}, x.kind = some k → s.guardDisposition .control w = s.controlDisposition w x k
      ∧ s.guardDisposition .scanner w = scannerDisposition w x k := State.guardDisposition_of_window harea hx
  have control : ∀ {k d}, x.kind = some k → s.controlDisposition w x k = d → s.guardDisposition .control w = d :=
    fun hk hd => (decoded hk).1.trans hd
  have scanner : ∀ {k d}, x.kind = some k → scannerDisposition w x k = d → s.guardDisposition .scanner w = d :=
    fun hk hd => (decoded hk).2.trans hd
  refine ⟨fun hk => scanner hk rfl, fun hk => ⟨control hk rfl, fun hpart => scanner hk (fullOr_of_partial hpart _),
    fun hfull k hword => scanner hk ?_, fun hfull hword => scanner hk ?_⟩, fun hk => ⟨scanner hk rfl,
    fun hpart hword => control hk ?_, fun hfull hword => control hk ?_, fun hfull n hword => control hk ?_,
    fun hword => control hk ?_, fun hword => control hk ?_⟩, fun hk => ⟨scanner hk rfl, fun hword => control hk ?_,
    fun hword hpart => control hk ?_, fun hword hfull hhead hchecked => ⟨fun hout => control hk ?_, fun hin => control hk ?_⟩⟩,
    fun hk => ⟨scanner hk rfl, control hk rfl⟩, fun hk => ⟨control hk rfl, scanner hk rfl⟩⟩ <;>
    rw [← writeAt_eq] at hword
  · exact feedbackDisposition_of_source hfull hword
  · exact feedbackDisposition_of_above hfull hword
  · exact mailboxDisposition_of_partial hpart hword
  · exact mailboxDisposition_of_request hfull hword
  · exact mailboxDisposition_of_argument hfull hword
  · exact mailboxDisposition_of_reply hword
  · exact mailboxDisposition_of_above hword
  · exact State.reportDisposition_of_header s w hword
  · exact (State.reportDisposition_of_tail s w hword).trans (fullOr_of_partial hpart _)
  · exact (State.reportDisposition_of_tail s w hword).trans ((fullOr_of_full hfull _).trans
      (if_neg (mt (State.tailInRange_iff hhead hchecked _).mp hout)))
  · exact (State.reportDisposition_of_tail s w hword).trans ((fullOr_of_full hfull _).trans
      (if_pos ((State.tailInRange_iff hhead hchecked _).mpr hin)))

/-! ### The checks of a command write (R14) -/

theorem commandSpeed_eq (w : Word) : commandSpeed w = speedOfCode (w.toNat % 4) := congrArg speedOfCode (bits_low_pair w)

theorem commandSpeed_isNone_iff (w : Word) : (commandSpeed w).isNone = true ↔ w.toNat % 4 = 3 := by
  have below : w.toNat % 4 < 4 := Nat.mod_lt _ (by omega)
  rw [commandSpeed_eq]
  revert below
  generalize w.toNat % 4 = code
  intro below
  interval_cases code <;> decide

theorem State.gangedMember_iff (s : State) (n : StationNo) : s.gangedMember n = true ↔
    (s.static n).leader ≠ n.val ∧ Setup.headsGang s.copy (s.static n).leader = true := by
  unfold State.gangedMember
  rw [Bool.and_eq_true, decide_eq_true_iff, and_comm]

theorem State.commandDisposition_of_above (s : State) {w : PortWrite} {offset : Nat} (hfull : w.enables = 15)
    (h : 256 ≤ offset) : s.commandDisposition w offset = .refuse .absent := by
  unfold State.commandDisposition
  rw [fullOr_of_full hfull, dif_neg (by omega)]

/-- The last three checks, at the station addressed. -/
theorem State.commandDisposition_of_station (s : State) {w : PortWrite} {offset : Nat} {n : StationNo}
    (hfull : w.enables = 15) (h : offset / 4 = n.val) : s.commandDisposition w offset =
      if !s.present n then .refuse .absent
      else if s.gangedMember n then .refuse .ganged
      else if (commandSpeed w.data).isNone then .refuse .badValue
      else .absorb n := by
  have station : (⟨offset / 4, h ▸ n.isLt⟩ : StationNo) = n := Fin.ext h
  unfold State.commandDisposition
  rw [fullOr_of_full hfull, dif_pos (h ▸ n.isLt)]
  dsimp only
  rw [station]

/-- Settles O11, check by check. -/
theorem commandWriteChecks : Obligations.CommandWriteChecks := by
  intro s w x harea hx hk
  have decoded := (State.guardDisposition_of_window harea hx hk).1
  have at_eq : s.controlDisposition w x .command = s.commandDisposition w (w.addr.toNat / 4 * 4 - x.base) := by
    rw [← writeAt_eq]; rfl
  rw [decoded, at_eq]
  refine ⟨fun hpart => fullOr_of_partial hpart _, fun hfull habove => s.commandDisposition_of_above hfull habove,
    fun hfull n hn => ?_⟩
  rw [s.commandDisposition_of_station hfull hn]
  refine ⟨fun habsent => by rw [habsent]; rfl, fun hpresent => ?_⟩
  rw [if_neg (by rw [hpresent]; nofun)]
  refine ⟨fun hganged => if_pos ((s.gangedMember_iff n).mpr hganged), fun hfree hbad => ?_, fun hfree hgood => ?_⟩
  · rw [if_neg (mt (s.gangedMember_iff n).mp hfree), if_pos ((commandSpeed_isNone_iff _).mpr hbad)]
  · rw [if_neg (mt (s.gangedMember_iff n).mp hfree), if_neg (mt (commandSpeed_isNone_iff _).mp hgood)]

end Sys2Proof.Machine
end

section
/-! PROOF. The memory port: the grants and the completion no block acts on (O15-O20). -/

namespace Sys2Proof.Machine

open Sys2Proof

/-! ### Fields that hold their value (12, R197) -/

theorem placed_of_lt {lo width v : Nat} (h : v < 2 ^ width) : placed lo width v = 2 ^ lo * v := by
  unfold placed
  rw [Nat.mod_eq_of_lt h, Nat.mul_comm]

theorem speedCode_lt (x : Speed) : speedCode x < 2 ^ 2 := by cases x <;> decide

theorem dirCode_lt (x : Dir) : dirCode x < 2 ^ 1 := by cases x <;> decide

theorem LifeState.code_lt (x : LifeState) : x.code < 2 ^ 4 := by cases x <;> decide

theorem Authority.code_lt (x : Authority) : x.code < 2 ^ 1 := by cases x <;> decide

theorem tripCauseCode_lt : ∀ x : Option TripCause, tripCauseCode x < 2 ^ 3
  | none => by decide
  | some x => by cases x <;> decide

theorem RecordKind.code_lt (x : RecordKind) : x.code < 2 ^ 8 := by cases x <;> decide

theorem fanCode_eq (c : FanCommand) : fanCode c = speedCode c.speed + 4 * dirCode c.dir := by
  unfold fanCode
  rw [placed_of_lt (speedCode_lt _), placed_of_lt (dirCode_lt _)]
  omega

theorem Station.commandWord_eq (d : Station) : d.commandWord =
    BitVec.ofNat 32 (speedCode d.effective.speed + 4 * dirCode d.effective.dir + 8 * d.authority.code + 16 * d.state.code
      + 256 * tripCauseCode d.tripCause) := by
  unfold Station.commandWord
  rw [fanCode_eq, placed_of_lt (Authority.code_lt _), placed_of_lt (LifeState.code_lt _), placed_of_lt (tripCauseCode_lt _)]
  rfl

theorem ReportRecord.words_eq (r : ReportRecord) : r.words =
    [BitVec.ofNat 32 (r.kind.code + 65536 * r.detailA.toNat), r.stamp, r.subject, r.detailB] := by
  unfold ReportRecord.words
  rw [placed_of_lt r.kind.code_lt, placed_of_lt r.detailA.isLt, Nat.pow_zero, Nat.one_mul]
  rfl

/-! ### A grant (R170) -/

theorem exec_memoryGrant_of {s t : State} {r : Requester} (hfree : s.inFlight = none) (hwin : s.winner = some r)
    (ht : s.grantTo r = some t) : exec .memoryGrant s = .next { t with arbiter := s.arbiterAfter r } := by
  show Host.Outcome.next s.memoryGrant = _
  unfold State.memoryGrant
  rw [hfree, hwin]
  dsimp only
  rw [ht]

theorem exec_memoryGrant_of_nothing {s : State} {r : Requester} (hfree : s.inFlight = none) (hwin : s.winner = some r)
    (hnone : s.grantTo r = none) : exec .memoryGrant s = .next s := by
  show Host.Outcome.next s.memoryGrant = _
  unfold State.memoryGrant
  rw [hfree, hwin]
  dsimp only
  rw [hnone]

/-- Without a read-in the image writer presents the head of its work list. -/
theorem State.grantTo_image_of_entry {s t : State} (hread : s.reading = []) (h : s.grantEntryAccess = some t) :
    s.grantTo .image = some t := by
  unfold State.grantTo State.grantImage
  rw [hread]
  exact h

theorem State.grantImage_requester {s t : State} (h : s.grantImage = some t) :
    ∃ f, t.inFlight = some f ∧ f.requester = .image := by
  have ofRecord : ∀ r l, ∃ f, (s.grantRecord r l).inFlight = some f ∧ f.requester = .image := fun r l => by
    unfold State.grantRecord
    split <;> exact ⟨_, rfl, rfl⟩
  have ofSnapshot : ∀ x, ∃ f, (s.grantSnapshot x).inFlight = some f ∧ f.requester = .image := fun x => by
    unfold State.grantSnapshot
    dsimp only
    split <;> exact ⟨_, rfl, rfl⟩
  unfold State.grantImage State.grantEntryAccess at h
  split at h
  · cases h; exact ⟨_, rfl, rfl⟩
  · split at h
    case h_1 => cases h
    case h_2 => cases h; exact ⟨_, rfl, rfl⟩
    case h_3 => cases h; exact ⟨_, rfl, rfl⟩
    case h_4 =>
      split at h
      · cases h
      · cases h; exact ofRecord _ _
    case h_5 => cases h
    case h_6 => cases h; exact ⟨_, rfl, rfl⟩
    case h_7 => cases h; exact ofRecord _ _
    case h_8 => cases h
    case h_9 =>
      obtain ⟨x, -, rfl⟩ := Option.map_eq_some_iff.mp h
      exact ofSnapshot x
    case h_10 => cases h; exact ⟨_, rfl, rfl⟩
    case h_11 => cases h; exact ⟨_, rfl, rfl⟩

theorem State.grantPort_of_write {s : State} {p : Port} {w : PortWrite} {rest : List PortWrite} {k : PassKind}
    (hbuffer : (s.port p).buffer = w :: rest) (hk : (s.port p).disposed = some k) : s.grantPort p =
      { s.withPort p { s.port p with buffer := rest, disposed := none } with
        inFlight := some {
          requester := requesterOf p, owner := .port k
          transfer := .write (w.addr.toNat / 4 * 4) w.data w.enables } } := by
  unfold State.grantPort
  rw [← writeAt_eq]
  dsimp only
  rw [hbuffer, hk]

theorem State.grantPort_of_read {s : State} {p : Port} {a : Addr} (hbuffer : (s.port p).buffer = [])
    (hread : (s.port p).read = some a) : s.grantPort p =
      { s with
        inFlight := some
          { requester := requesterOf p, owner := .portRead p, transfer := .read (a.toNat / 4 * 4) } } := by
  unfold State.grantPort
  rw [← wordAddr_addr]
  dsimp only
  rw [hbuffer, hread]

/-- A waiting port has an access to present. -/
theorem State.grantPort_requester {s : State} {p : Port} (h : s.portWaiting p = true) :
    ∃ f, (s.grantPort p).inFlight = some f ∧ f.requester = requesterOf p := by
  unfold State.portWaiting at h
  rw [Bool.and_eq_true, Bool.or_eq_true, Bool.and_eq_true, Bool.and_eq_true] at h
  obtain ⟨-, ⟨hk, hbuffer⟩ | ⟨hempty, hread⟩⟩ := h
  · obtain ⟨k, hk⟩ := Option.isSome_iff_exists.mp hk
    cases hb : (s.port p).buffer with
    | nil => rw [hb] at hbuffer; cases hbuffer
    | cons w rest => exact ⟨_, congrArg State.inFlight (State.grantPort_of_write hb hk), rfl⟩
  · obtain ⟨a, ha⟩ := Option.isSome_iff_exists.mp hread
    exact ⟨_, congrArg State.inFlight (State.grantPort_of_read (List.isEmpty_iff.mp hempty) ha), rfl⟩

/-- A winner with an access to present is granted it. -/
theorem State.grantTo_requester {s : State} {r : Requester} (h : s.waiting r = true)
    (himage : r = .image → s.grantImage.isSome = true) :
    ∃ t, s.grantTo r = some t ∧ ∃ f, t.inFlight = some f ∧ f.requester = r := by
  cases r with
  | image =>
    obtain ⟨t, ht⟩ := Option.isSome_iff_exists.mp (himage rfl)
    exact ⟨t, ht, State.grantImage_requester ht⟩
  | scanner => exact ⟨_, rfl, State.grantPort_requester h⟩
  | control => exact ⟨_, rfl, State.grantPort_requester h⟩

theorem State.of_arbiterAfter (s : State) (winner r : Requester) : (s.arbiterAfter winner).of r =
    { base := (s.arbiter.of r).base, lost := s.lostAfter winner r } := by cases r <;> rfl

theorem State.lostAfter_of_ne (s : State) {winner r : Requester} (h : r ≠ winner) : s.lostAfter winner r =
    (s.arbiter.of r).lost + if s.waiting r = true then 1 else 0 := by
  unfold State.lostAfter
  rw [if_neg h]
  split <;> rfl

/-- An entry that has not been checked presents no access (log 17). -/
theorem State.grantEntryAccess_of_unchecked {s : State} {rest : List WorkEntry}
    (h : s.writer.workList = .record false :: rest ∨ s.writer.workList = .overflow none :: rest) :
    s.grantEntryAccess = none := by
  unfold State.grantEntryAccess
  obtain h | h := h <;> rw [h]

/-- Settles O15: the requester ahead of the others is the winner, and the winner is granted what it presents. -/
theorem arbiterGrantsTheBestRequester : Obligations.ArbiterGrantsTheBestRequester := by
  refine ⟨fun r s hfree hwait himage best => ?_, fun rest s hfree hwin hread hhead => ?_⟩
  · have winner : s.winner = some r := (s.winner_eq_some_iff r).mpr ⟨hwait, fun q hq hne => best q hq hne⟩
    obtain ⟨t, ht, hflight⟩ := State.grantTo_requester hwait himage
    have memory : t.mem = s.mem := by rw [State.grantTo_frame ht]
    refine ⟨_, exec_memoryGrant_of hfree winner ht, hflight, ?_, fun q hne => ?_, memory⟩
    · exact (s.of_arbiterAfter r r).trans (by rw [s.lostAfter_winner])
    · exact (s.of_arbiterAfter r q).trans (by rw [s.lostAfter_of_ne hne])
  · refine exec_memoryGrant_of_nothing hfree hwin ?_
    unfold State.grantTo State.grantImage
    rw [hread]
    exact State.grantEntryAccess_of_unchecked hhead

theorem State.grantTo_port (s : State) (p : Port) : s.grantTo (requesterOf p) = some (s.grantPort p) := by
  cases p <;> rfl

/-- Settles O16: the two accesses a port presents. -/
theorem portGrantStartsItsAccess : Obligations.PortGrantStartsItsAccess := by
  intro p s hfree hwin
  have granted := exec_memoryGrant_of hfree hwin (s.grantTo_port p)
  refine ⟨fun w rest k hbuffer hk => ?_, fun a hbuffer hread => ?_⟩
  · rw [granted, State.grantPort_of_write hbuffer hk]
  · rw [granted, State.grantPort_of_read hbuffer hread]

/-! ### Grants to the image writer (R19, R182, R187, R190, R195) -/

theorem ImageWriter.leave_of_head {w : ImageWriter} {e : WorkEntry} {rest : List WorkEntry} (h : w.workList = e :: rest) :
    w.leave = { w with workList := rest, progress := 0 } := by
  unfold ImageWriter.leave
  rw [h, List.tail_cons]

/-- Settles O17: each entry of one write, and the read of the read-in. -/
theorem singleAccessesOfTheImageWriter : Obligations.SingleAccessesOfTheImageWriter := by
  refine ⟨fun n rest s hfree hwin hread hlist => ?_, fun s hfree hwin => ⟨fun n more hread => ?_,
    fun hread e rest a w o hlist hentry => ?_⟩⟩
  · have access : s.grantEntryAccess = some (s.grantStation n) := by
      unfold State.grantEntryAccess
      rw [hlist]
    rw [exec_memoryGrant_of hfree hwin (State.grantTo_image_of_entry hread access), State.grantStation, State.imageLeave,
      ImageWriter.leave_of_head hlist, Station.commandWord_eq]
    rfl
  · have access : s.grantTo .image = some { s with
        reading := more
        inFlight := some {
          requester := .image, transfer := .read (wordAddr (commandAddr s.copy n)), owner := .readIn n } } := by
      unfold State.grantTo State.grantImage
      rw [hread]
    rw [exec_memoryGrant_of hfree hwin access]
    rfl
  · have access : s.grantEntryAccess = some (s.imageLeave.imageWrite a w o) := by
      unfold State.grantEntryAccess
      rw [hlist]
      obtain ⟨rfl, rfl, rfl⟩ | ⟨rfl, rfl, rfl, rfl⟩ | ⟨rfl, rfl, rfl⟩ | ⟨last, rfl, rfl⟩ := hentry <;> rfl
    rw [exec_memoryGrant_of hfree hwin (State.grantTo_image_of_entry hread access), State.imageLeave,
      ImageWriter.leave_of_head hlist]
    rfl

/-- The slot after the head (R188). -/
theorem nextSlot_eq {cap head : Nat} (h : head < cap) : nextSlot cap head = (head + 1) % cap := by
  unfold nextSlot
  split
  · next hlt => rw [Nat.mod_eq_of_lt hlt]
  · have wraps : head + 1 = cap := by omega
    rw [wraps, Nat.mod_self]

theorem ReportRecord.words_getD (r : ReportRecord) {i : Nat} (h : i < 4) : r.words.getD i 0 =
    if i = 0 then BitVec.ofNat 32 (r.kind.code + 65536 * r.detailA.toNat) else if i = 1 then r.stamp
      else if i = 2 then r.subject else r.detailB := by
  rw [r.words_eq]
  interval_cases i <;> rfl

/-- Settles O18: a record goes out word by word, then the head. -/
theorem recordGrantsFillTheSlot : Obligations.RecordGrantsFillTheSlot := by
  intro e r after rest s hfree hwin hread hlist hentry hhead
  have access : s.grantEntryAccess = some (s.grantRecord r after) := by
    unfold State.grantEntryAccess
    rw [hlist]
    obtain ⟨rfl, hbuffer⟩ | ⟨rfl, hbuffer⟩ := hentry
    · dsimp only
      rw [hbuffer]
    · rw [← hbuffer]
  have granted := exec_memoryGrant_of hfree hwin (State.grantTo_image_of_entry hread access)
  refine ⟨fun i hi hprogress => ?_, fun hprogress => ?_⟩
  · rw [granted, State.grantRecord, if_pos (by omega), hprogress, r.words_getD hi, State.imageAdvance, hprogress]
    rfl
  · rw [granted, State.grantRecord, if_neg (by omega), nextSlot_eq hhead, ImageWriter.leave_of_head hlist]
    rfl

theorem SnapshotSlot.length_writes (x : SnapshotSlot) : x.writes.length = 4 := rfl

theorem Snapshot.length_writes (x : Snapshot) : x.writes.length = 4 * x.slots.length + 5 := by
  have slots : ((x.slots.map SnapshotSlot.writes).flatten).length = 4 * x.slots.length := by
    rw [List.length_flatten, List.map_map, List.map_congr_left (g := fun _ => 4) fun y _ => y.length_writes,
      List.map_const', List.sum_replicate, smul_eq_mul, Nat.mul_comm]
  unfold Snapshot.writes
  rw [List.cons_append, List.length_cons, List.length_append, slots]
  rfl

/-- Settles O19: the writes of a snapshot in their order, the last one taking the entry off the list. -/
theorem snapshotGrantsFollowTheOrder : Obligations.SnapshotGrantsFollowTheOrder := by
  intro x rest s hfree hwin hread hlist hx hordinal writes
  have order : x.writes = writes := by
    unfold Snapshot.writes ordinalWord
    rw [if_pos hordinal]
    rfl
  refine ⟨order ▸ x.length_writes, fun i a w hi hw => ?_⟩
  have access : s.grantEntryAccess = some (s.grantSnapshot x) := by
    unfold State.grantEntryAccess
    rw [hlist]
    dsimp only
    rw [hx]
    rfl
  rw [exec_memoryGrant_of hfree hwin (State.grantTo_image_of_entry hread access), ← order]
  rw [← order] at hw
  have inside : i < x.writes.length := (List.getElem?_eq_some_iff.mp hw).1
  have nextWrite : x.writes.getD s.writer.progress (0, 0) = (a, w) := by
    rw [← hi, List.getD_eq_getElem?_getD, hw]
    rfl
  unfold State.grantSnapshot
  dsimp only
  rw [nextWrite]
  by_cases hlast : i + 1 = x.writes.length
  · rw [if_neg (by omega), if_pos hlast, if_pos hlast, State.imageLeave, ImageWriter.leave_of_head hlist]
    rfl
  · rw [if_pos (by omega), if_neg hlast, if_neg hlast, State.imageAdvance, hi]
    rfl

/-! ### Completions that no block acts on (R162, R169) -/

/-- Settles O20: the completion of a plain write, and of a port's read. -/
theorem plainAccessCompletes : Obligations.PlainAccessCompletes := by
  refine ⟨fun q a d e o s ho hflight => ?_, fun q a p s hflight => ?_⟩
  · have finished : s.plainWrite = s.finish := by
      unfold State.plainWrite
      rw [s.flightOwner_of hflight]
      obtain rfl | rfl := ho <;> rfl
    exact ⟨s.finish, congrArg _ finished, s.finish_completed, s.finish_eq⟩
  · have returned : s.plainWrite = s.finish.returnRead p s.flightWord := by
      unfold State.plainWrite
      rw [s.flightOwner_of hflight]
    have executed : exec .plainWrite s = .next s.plainWrite := rfl
    rw [executed, returned, s.flightWord_of hflight, s.finish_read hflight]
    cases p <;> rfl

end Sys2Proof.Machine
end

section
/-! PROOF. The start queues (O14), and the rules by which a station moves: tables, feeder, report of availability. -/

namespace Sys2Proof

/-! ### Tables -/

theorem Table.put_put {α : Type} {n : Nat} (t : Table α n) (i : Fin n) (x y : α) : (t.put i x).put i y = t.put i y :=
  Vector.set_set ..

theorem Table.put_self {α : Type} {n : Nat} (t : Table α n) (i : Fin n) : t.put i (t.nth i) = t :=
  Vector.set_getElem_self ..

theorem Table.ext_nth {α : Type} {n : Nat} {t u : Table α n} (h : ∀ i, t.nth i = u.nth i) : t = u :=
  Vector.ext fun i hi => h ⟨i, hi⟩

end Sys2Proof

namespace Sys2Proof.Machine

open Sys2Proof

/-! ### Start queues (R59-R62) -/

theorem queueRetarget_of_same {n : StationNo} {target : FanCommand} {cls : EntryClass} {q : List QueueEntry} {e : QueueEntry}
    (hfind : queueFind n q = some e) (h : e.cls = cls) :
    queueRetarget n target cls q = q.map (fun x => if x.station = n then { x with target := target } else x) := by
  unfold queueRetarget
  rw [hfind]
  exact if_pos h

theorem queueRetarget_of_other {n : StationNo} {target : FanCommand} {cls : EntryClass} {q : List QueueEntry}
    {e : QueueEntry} (hfind : queueFind n q = some e) (h : e.cls ≠ cls) :
    queueRetarget n target cls q = queueInsert { e with target := target, cls := cls } (queueRemove n q) := by
  unfold queueRetarget
  rw [hfind]
  exact if_neg h

/-- Settles O14: the order, the insert, the retarget in its two cases, the remove. -/
theorem startQueuesKeepTheirOrder : Obligations.StartQueuesKeepTheirOrder := by
  refine ⟨QueueEntry.before_iff, fun e q hnew hordered => ⟨ordered_queueInsert hnew hordered, queueInsert_perm e q⟩,
    fun n target cls q e hordered _ hfind => ⟨queueRetarget_of_same hfind, fun hcls => ⟨?_, ?_⟩⟩,
    fun n q => ⟨queueRemove_sublist n q, fun x => mem_queueRemove n x q⟩⟩
  · exact ordered_queueRetarget n target cls hordered
  · rw [queueRetarget_of_other hfind hcls]
    exact queueInsert_perm _ _

/-! ### A station moves (R18, R24, R50) -/

theorem Station.shown_ne_of_state {d d' : Station} (h : d'.state ≠ d.state) : d.shown ≠ d'.shown :=
  fun heq => h (congrArg (fun x => x.2.2.1) heq).symm

/-- A transition to another state, field by field. -/
theorem State.moveStation_eq {s : State} {n : StationNo} {d : Station} (h : d.state ≠ (s.station n).state)
    (l : List ReportRecord) : s.moveStation n d l =
      { s with
        stations := s.stations.put n { d with entered := true, writeBackPending := true }
        feeders := s.feeders.put (s.feederNo n) (feederAfterMove s n (s.station n) d)
        writer := (s.writer.placeOnce (.station n)).handAll l
        reports := s.reports ++ availabilityChange s n (s.station n) d } := by
  have entered : s.enterState n d = _ := s.putStation_of_change n { d with entered := true } (Station.shown_ne_of_state h)
  unfold State.moveStation
  rw [entered]

/-- A transition out of a record just put. -/
theorem State.moveStation_put (s : State) {n : StationNo} {d d' : Station} (h : d'.state ≠ d.state)
    (l : List ReportRecord) : ({ s with stations := s.stations.put n d } : State).moveStation n d' l =
      { s with
        stations := s.stations.put n { d' with entered := true, writeBackPending := true }
        feeders := s.feeders.put (s.feederNo n) (feederAfterMove s n d d')
        writer := (s.writer.placeOnce (.station n)).handAll l
        reports := s.reports ++ availabilityChange s n d d' } := by
  have held : ({ s with stations := s.stations.put n d } : State).station n = d := Table.nth_put_self _ _ _
  rw [State.moveStation_eq (by rwa [held]), held, Table.put_put]
  rfl

/-- The feeder of a station that moves to a state other than QUEUED. -/
theorem feederAfterMove_of_left (s : State) (n : StationNo) {d d' : Station} (hd : d.state = (s.station n).state)
    (h : d'.state ≠ .queued) : feederAfterMove s n d d' = s.feederLeft n := by
  unfold feederAfterMove State.feederLeft
  dsimp only
  rw [if_neg h, hd]
  split
  · rfl
  · rw [Nat.sub_zero]
    rfl

/-- The feeder of a station that moves to QUEUED from a state other than QUEUED. -/
theorem feederAfterMove_of_queued (s : State) (n : StationNo) {d d' : Station} (hd : d.state = (s.station n).state)
    (hleft : (s.station n).state ≠ .queued) (h : d'.state = .queued) : feederAfterMove s n d d' =
      { s.feederLeft n with queue := queueInsert (queueEntryFor s n d') (s.feeder (s.feederNo n)).queue } := by
  unfold feederAfterMove State.feederLeft
  dsimp only
  rw [if_pos h, hd, if_neg hleft]
  split
  · rfl
  · rw [Nat.sub_zero]

/-- A station in neither QUEUED nor STARTING leaves its feeder's record as it is. -/
theorem State.feederLeft_of_idle {s : State} {n : StationNo} (hqueued : (s.station n).state ≠ .queued)
    (hstarting : (s.station n).state ≠ .starting) : s.feederLeft n = s.feeder (s.feederNo n) := by
  unfold State.feederLeft
  rw [if_neg hqueued, if_neg hstarting]
  rfl

theorem State.feederLeft_of_queued {s : State} {n : StationNo} (h : (s.station n).state = .queued) :
    s.feederLeft n = { s.feeder (s.feederNo n) with
      queue := (s.feeder (s.feederNo n)).queue.filter (fun x => x.station != n) } := by
  unfold State.feederLeft
  rw [h]
  rfl

theorem State.feederLeft_of_starting {s : State} {n : StationNo} (h : (s.station n).state = .starting) :
    s.feederLeft n = { s.feeder (s.feederNo n) with slotsInUse := (s.feeder (s.feederNo n)).slotsInUse - 1 } := by
  unfold State.feederLeft
  rw [h]
  rfl

/-- Putting back the record a feeder has changes nothing. -/
theorem State.feeders_put_self (s : State) (f : FeederNo) : s.feeders.put f (s.feeder f) = s.feeders := Table.put_self _ _

theorem State.stations_put_self (s : State) (n : StationNo) : s.stations.put n (s.station n) = s.stations :=
  Table.put_self _ _

/-- Neither going out nor coming back is not reported. -/
theorem availabilityChange_of_same (s : State) (n : StationNo) {d d' : Station} (h : d.state.out = d'.state.out) :
    availabilityChange s n d d' = [] := by
  unfold availabilityChange
  rw [h, bne_self_eq_false, Bool.and_false]
  rfl

theorem State.supplied_iff (s : State) (n : StationNo) :
    s.supplied n = true ↔ (s.feeder (s.feederNo n)).supply = .present := beq_iff_eq

/-- Going out, or coming back, is reported while the feeder is PRESENT. -/
theorem availabilityChange_of_other (s : State) (n : StationNo) {d d' : Station} (h : d.state.out = !d'.state.out) :
    availabilityChange s n d d' = if (s.feeder (s.feederNo n)).supply = .present then
      [{ station := n, available := !d'.state.out }] else [] := by
  have differ : (d.state.out != d'.state.out) = true := by rw [h]; cases d'.state.out <;> rfl
  unfold availabilityChange
  rw [differ, Bool.and_true]
  exact if_congr (s.supplied_iff n) rfl rfl

theorem LifeState.out_iff (x : LifeState) : x.out = true ↔ x = .tripped ∨ x = .locked := by cases x <;> decide

end Sys2Proof.Machine
end

section
/-! PROOF. A command write (O12): the setup's station records, claims in turns, and the claims of one write. -/

namespace Sys2Proof.Machine

open Sys2Proof

/-! ### A station's record of the copy (R3, R4, 12.6) -/

theorem Setup.station_eq (c : Cells Word) (n : Nat) : Setup.station c n =
    { present := decide (bits (Setup.word c (256 + 4 * n)) 0 0 = 1)
      ganged := decide (bits (Setup.word c (256 + 4 * n)) 1 1 = 1)
      feeder := bits (Setup.word c (256 + 4 * n)) 15 8
      segment := bits (Setup.word c (256 + 4 * n)) 23 16
      leader := bits (Setup.word c (257 + 4 * n)) 7 0
      spare := bits (Setup.word c (257 + 4 * n)) 15 8
      spareSet := decide (bits (Setup.word c (257 + 4 * n)) 16 16 = 1)
      dwell := bits (Setup.word c (258 + 4 * n)) 15 0
      startTimeout := bits (Setup.word c (258 + 4 * n)) 31 16
      stopTimeout := bits (Setup.word c (259 + 4 * n)) 15 0 } := by
  have second : 257 + 4 * n = 256 + 4 * n + 1 := by omega
  have third : 258 + 4 * n = 256 + 4 * n + 2 := by omega
  have fourth : 259 + 4 * n = 256 + 4 * n + 3 := by omega
  rw [second, third, fourth]
  rfl

theorem Setup.station_present_iff (c : Cells Word) (n : Nat) :
    (Setup.station c n).present = true ↔ bits (Setup.word c (256 + 4 * n)) 0 0 = 1 := by
  rw [Setup.station_eq, decide_eq_true_iff]

theorem Setup.station_leader (c : Cells Word) (n : Nat) :
    (Setup.station c n).leader = bits (Setup.word c (257 + 4 * n)) 7 0 := by rw [Setup.station_eq]

theorem Setup.station_ganged_iff (c : Cells Word) (n : Nat) :
    (Setup.station c n).ganged = true ↔ bits (Setup.word c (256 + 4 * n)) 1 1 = 1 := by
  rw [Setup.station_eq, decide_eq_true_iff]

theorem Setup.headsGang_iff (c : Cells Word) (n : Nat) : Setup.headsGang c n = true ↔
    bits (Setup.word c (256 + 4 * n)) 0 0 = 1 ∧ bits (Setup.word c (257 + 4 * n)) 7 0 = n
      ∧ bits (Setup.word c (256 + 4 * n)) 1 1 = 1 := by
  unfold Setup.headsGang
  rw [Bool.and_eq_true, Bool.and_eq_true, decide_eq_true_iff, Setup.station_present_iff, Setup.station_ganged_iff,
    Setup.station_leader, and_assoc]

theorem Setup.gangMembers_eq (c : Cells Word) (n : Nat) : Setup.gangMembers c n = allStations.filter (fun m : StationNo =>
    decide (bits (Setup.word c (256 + 4 * m.val)) 0 0 = 1 ∧ bits (Setup.word c (257 + 4 * m.val)) 7 0 = n)) := by
  refine List.filter_congr fun m _ => Bool.eq_iff_iff.mpr ?_
  rw [Bool.and_eq_true, decide_eq_true_iff, decide_eq_true_iff, Setup.station_present_iff, Setup.station_leader]

/-! ### Claims in turns (R16, log 11) -/

/-- A property that the claims of the stations that wait keep, and the grants that are among the turns, holds after the
claims. -/
theorem State.takeClaims_keeps_of_mem {claim : State → StationNo → State} {P : State → Prop} {turns : List Turn}
    {waiting : List StationNo} (hclaim : ∀ t m, m ∈ waiting → P t → P (claim t m))
    (hgrant : ∀ t f, .grant f ∈ turns → P t → P (t.grant f)) (begun : Bool) {s : State} (h : P s) :
    P (State.takeClaims claim turns waiting begun s) := by
  induction turns generalizing waiting begun s with
  | nil =>
    simp only [State.takeClaims]
    induction waiting generalizing s with
    | nil => exact h
    | cons m rest ih =>
      exact ih (fun t k hk => hclaim t k (List.mem_cons_of_mem _ hk)) (hclaim s m List.mem_cons_self h)
  | cons turn turns ih =>
    have later : ∀ t f, .grant f ∈ turns → P t → P (t.grant f) := fun t f hf => hgrant t f (List.mem_cons_of_mem _ hf)
    cases turn with
    | claim m =>
      simp only [State.takeClaims]
      split
      · next hm => exact ih (fun t k hk => hclaim t k (List.mem_of_mem_filter hk)) later true (hclaim s m hm h)
      · exact ih hclaim later begun h
    | grant f =>
      simp only [State.takeClaims]
      refine ih hclaim later begun ?_
      split
      · exact hgrant s f List.mem_cons_self h
      · exact h

/-- One station that waits takes its claim, and nothing else happens, whatever the turns are. -/
theorem State.takeClaims_singleton (claim : State → StationNo → State) (turns : List Turn) (n : StationNo) (s : State) :
    State.takeClaims claim turns [n] false s = claim s n := by
  have done : ∀ (turns : List Turn) (t : State), State.takeClaims claim turns [] true t = t := by
    intro turns
    induction turns with
    | nil => exact fun t => rfl
    | cons turn turns ih =>
      intro t
      cases turn with
      | claim m =>
        simp only [State.takeClaims, List.not_mem_nil, if_false]
        exact ih t
      | grant f =>
        simp only [State.takeClaims, List.isEmpty_nil, Bool.not_true, Bool.and_false]
        exact ih t
  induction turns with
  | nil => rfl
  | cons turn turns ih =>
    cases turn with
    | claim m =>
      simp only [State.takeClaims]
      split
      · next hm =>
        obtain rfl := List.mem_singleton.mp hm
        have none_left : [m].filter (fun k => k != m) = [] := by simp
        rw [none_left]
        exact done turns _
      · exact ih
    | grant f =>
      simp only [State.takeClaims, Bool.false_and]
      exact ih

theorem State.turns_runningChange (s : State) (n : StationNo) : (s.runningChange n).turns = s.turns := by
  unfold State.runningChange
  dsimp only
  split
  · rfl
  · split
    · rfl
    · split <;> rfl

theorem State.turns_queuedChange (s : State) (n : StationNo) : (s.queuedChange n).turns = s.turns := by
  unfold State.queuedChange
  dsimp only
  split
  · split <;> rfl
  · split
    · rfl
    · split <;> rfl

theorem State.turns_lifecycleChange (s : State) (n : StationNo) : (s.lifecycleChange n).turns = s.turns := by
  unfold State.lifecycleChange
  split
  case h_1 => split <;> rfl
  case h_2 => exact s.turns_queuedChange n
  case h_3 => split <;> rfl
  case h_4 => exact s.turns_runningChange n
  all_goals rfl

theorem State.turns_claim (s : State) (n : StationNo) (d : Station) : (s.claim n d).turns = s.turns := by
  unfold State.claim
  split
  · exact State.turns_lifecycleChange _ n
  · rfl

theorem State.turns_grant (s : State) (f : FeederNo) : (s.grant f).turns = s.turns := by
  obtain h | ⟨e, rest, -, -, h⟩ := s.grant_cases f <;> rw [h]
  rfl

/-- The claims of one event use up no turns beside their own. -/
theorem State.turns_takeClaims {claim : State → StationNo → State} (hclaim : ∀ t m, (claim t m).turns = t.turns)
    (turns : List Turn) (waiting : List StationNo) (s : State) :
    (State.takeClaims claim turns waiting false s).turns = s.turns :=
  State.takeClaims_keeps claim (fun t => t.turns = s.turns) (fun t m h => (hclaim t m).trans h)
    (fun t f h => (t.turns_grant f).trans h) turns waiting false s rfl

/-- Two stations with a grant between their claims. -/
theorem State.takeClaims_pair (claim : State → StationNo → State) {a b : StationNo} (h : a ≠ b) (f : FeederNo) (s : State) :
    State.takeClaims claim [.claim a, .grant f, .claim b] [a, b] false s = claim ((claim s a).grant f) b := by
  have left : [a, b].filter (fun m => m != a) = [b] := by simp [Ne.symm h]
  simp only [State.takeClaims, List.mem_cons, true_or, if_true, left, List.isEmpty_cons, Bool.not_false, Bool.and_true]
  simp

/-! ### The command written (R13, R14) -/

/-- The command of a word that is no illegal one. -/
theorem commandReadIn_of_legal {w : Word} (h : w.toNat % 4 ≠ 3) : commandReadIn w =
    { dir := if w.getLsbD 2 then .rev else .fwd
      speed := if w.toNat % 4 = 0 then .off else if w.toNat % 4 = 1 then .low else .high } := by
  have below : w.toNat % 4 < 4 := Nat.mod_lt _ (by omega)
  unfold commandReadIn commandDir dirOfBit
  rw [flag_eq, commandSpeed_eq]
  revert below h
  generalize w.toNat % 4 = code
  intro h below
  interval_cases code
  · rfl
  · rfl
  · rfl
  · exact absurd rfl h

theorem State.legal_of_absorb {s : State} {w : PortWrite} {offset : Nat} {n : StationNo}
    (h : s.commandDisposition w offset = .absorb n) : w.data.toNat % 4 ≠ 3 := by
  unfold State.commandDisposition fullOr at h
  split at h
  · split at h
    · dsimp only at h
      split at h
      · cases h
      · split at h
        · cases h
        · split at h
          · cases h
          · next hlegal => exact fun hbad => hlegal ((commandSpeed_isNone_iff _).mpr hbad)
    · cases h
  · cases h

/-- The state a write leaves its buffer in, the turns of its claims used up. -/
def State.writeTaken (s : State) (rest : List PortWrite) : State :=
  { s with control := { s.control with buffer := rest }, turns := s.turns.tail }

/-- An accepted command write, by either of its rows: the claims of the stations it addresses. -/
theorem exec_commandWrite_of {w : PortWrite} {rest : List PortWrite} {x : Window} {n : StationNo} {s : State}
    (hpart : s.part = .guard) (hbuffer : s.control.buffer = w :: rest) (hnone : s.control.disposed = none)
    (harea : w.addr.toNat / 4 * 4 < 0xFC000) (hx : Setup.windowAt s.copy (w.addr.toNat / 4 * 4) = some x)
    (hk : x.kind = some .command) (habsorb : s.guardDisposition .control w = .absorb n) :
    exec (.writeDisposition .control) s = exec .commandWrite s
      ∧ exec .commandWrite s = .next (State.takeClaims
          (fun t m => t.setRequest m {
            dir := if w.data.getLsbD 2 then .rev else .fwd
            speed := if w.data.toNat % 4 = 0 then .off else if w.data.toNat % 4 = 1 then .low else .high })
          (s.turns.headD []) (s.addressed n) false (s.writeTaken rest)) := by
  have isCommand : s.isCommandWrite w = true := by
    have outside : inSetupArea (writeAt w) = false := by
      rw [writeAt_eq]
      exact decide_eq_false (by omega)
    unfold State.isCommandWrite
    rw [outside, writeAt_eq, hx]
    dsimp only
    rw [hk]
    rfl
  have legal : w.data.toNat % 4 ≠ 3 :=
    State.legal_of_absorb ((State.guardDisposition_of_window harea hx hk).1.symm.trans habsorb)
  have written := exec_writeDisposition_of_guard (p := .control) hpart hbuffer hnone
  have same : exec .commandWrite s = exec (.writeDisposition .control) s := by
    show Host.Outcome.next s.commandWrite = _
    unfold State.commandWrite
    rw [hbuffer]
    dsimp only
    rw [if_pos isCommand, inGuard_of hpart]
    rfl
  refine ⟨same.symm, ?_⟩
  rw [same, written, habsorb, ← commandReadIn_of_legal legal]
  rfl

theorem State.addressed_of_alone {s : State} {n : StationNo} (h : Setup.headsGang s.copy n.val = false) :
    s.addressed n = [n] := if_neg (by rw [h]; nofun)

theorem allStations_nodup : allStations.Nodup := List.nodup_finRange 64

theorem State.addressed_nodup (s : State) (n : StationNo) : (s.addressed n).Nodup := by
  unfold State.addressed
  split
  · exact allStations_nodup.filter _
  · exact List.nodup_singleton n

theorem State.part_of_stationsOnly {s t : State} (h : s.stationsOnly t) : t.part = s.part := by rw [h.1]

/-- Settles O12: the write's claims, and what claims and the grants between them change. -/
theorem acceptedCommandSetsRequests : Obligations.AcceptedCommandSetsRequests := by
  refine ⟨fun c n => ⟨Setup.headsGang_iff c n, Setup.gangMembers_eq c n⟩, ?_⟩
  intro w rest x n s hpart hbuffer hnone harea hx hk habsorb members c taken
  obtain ⟨same, executed⟩ := exec_commandWrite_of hpart hbuffer hnone harea hx hk habsorb
  let popped : State := { s with control := { s.control with buffer := rest } }
  refine ⟨same, ⟨_, executed, ?_, ?_, fun m hm => ?_, fun m hm => ?_, fun m => ?_, fun m hm => ?_, fun hgrants m hm => ?_⟩,
    fun a b f more hmembers hturns => ?_⟩
  · exact State.stationsOnly_takeClaims _ (fun t m => t.stationsOnly_setRequest m c) _ _ _ _
  · exact State.turns_takeClaims (fun t m => t.turns_claim m _) _ _ _
  · exact (State.request_absorbed popped n m c).trans (if_pos hm)
  · exact (State.request_absorbed popped n m c).trans (if_neg hm)
  · exact State.target_absorbed popped n m c
  · exact State.station_absorbed_ne popped n m c hm
  · refine State.takeClaims_keeps_of_mem (P := fun t => t.station m = s.station m) (fun t k hk h => ?_)
      (fun t f hf _ => absurd hf (hgrants f)) false rfl
    have other : m ≠ k := fun heq => hm (heq ▸ hk)
    rw [State.station_setRequest_ne t c other, h]
  · have distinct : a ≠ b := by
      have nodup : members.Nodup := s.addressed_nodup n
      rw [hmembers] at nodup
      exact (List.nodup_cons.mp nodup).1 ∘ List.mem_singleton.mpr
    have inGuardPart : (taken.setRequest a c).part = .guard :=
      (State.part_of_stationsOnly (taken.stationsOnly_setRequest a c)).trans hpart
    refine ⟨_, congrArg Host.Outcome.next (inGuard_of inGuardPart fun t => t.grant f), ?_⟩
    have addressed : s.addressed n = [a, b] := hmembers
    rw [executed, hturns, addressed, List.headD_cons, State.takeClaims_pair _ distinct]
    rfl

end Sys2Proof.Machine
end

section
/-! PROOF. The lifecycle's rules on changes of request, state by state (O13). -/

namespace Sys2Proof.Machine

open Sys2Proof

/-! ### The rules (R30, R32, R33, R39, R40) -/

/-- A command ends a run: STOP, or the opposite direction of a command that runs (R33, R40). -/
theorem endsRun_iff {r e : FanCommand} (he : e.speed ≠ .off) :
    (isStop r || opposite r e) = true ↔ r.speed = .off ∨ r.dir ≠ e.dir := by
  have running : isStop e = false := (isStop_eq_false_iff e).mpr he
  unfold opposite
  rw [running]
  by_cases hr : r.speed = .off
  · simp [(isStop_iff r).mpr hr, hr]
  · simp [(isStop_eq_false_iff r).mpr hr, hr]

theorem endsRun_eq_false {r e : FanCommand} (he : e.speed ≠ .off) (hr : r.speed ≠ .off) (hdir : r.dir = e.dir) :
    (isStop r || opposite r e) = false := by
  rw [← Bool.not_eq_true, endsRun_iff he]
  rintro (h | h)
  · exact hr h
  · exact h hdir

theorem speedAbove_iff (a b : Speed) : speedAbove a b = true ↔ speedCode b < speedCode a := decide_eq_true_iff

theorem speed_ne_off_of_above {a b : Speed} (h : speedCode b < speedCode a) : a ≠ .off := by
  rintro rfl
  exact Nat.not_lt_zero _ h

variable {s : State} {n : StationNo}

theorem State.lifecycleChange_of_off (h : (s.station n).state = .off) : s.lifecycleChange n =
    if isStop (s.station n).requested then s else s.moveStation n (s.station n).toQueued [] := by
  unfold State.lifecycleChange
  rw [h]

theorem State.lifecycleChange_of_queued (h : (s.station n).state = .queued) : s.lifecycleChange n = s.queuedChange n := by
  unfold State.lifecycleChange
  rw [h]

theorem State.lifecycleChange_of_starting (h : (s.station n).state = .starting) : s.lifecycleChange n =
    if isStop (s.station n).requested then s.moveStation n (s.station n).toStopping [] else s := by
  unfold State.lifecycleChange
  rw [h]

theorem State.lifecycleChange_of_running (h : (s.station n).state = .running) :
    s.lifecycleChange n = s.runningChange n := by
  unfold State.lifecycleChange
  rw [h]

/-- In STOPPING, DWELL, TRIPPED and LOCKED a change of request waits (R42, R44, R47, R49). -/
theorem State.lifecycleChange_of_resting (h : (s.station n).state = .stopping ∨ (s.station n).state = .dwell
    ∨ (s.station n).state = .tripped ∨ (s.station n).state = .locked) : s.lifecycleChange n = s := by
  unfold State.lifecycleChange
  obtain h | h | h | h := h <;> rw [h]

/-- The entry of a station in its feeder's queue gives its kind. -/
theorem State.entryKind_of {y : QueueEntry} (h : queueFind n (s.feeder (s.feederNo n)).queue = some y) :
    s.entryKind n = y.kind := by
  unfold State.entryKind
  rw [h]

theorem State.queuedChange_of_start (h : s.entryKind n = .start) : s.queuedChange n =
    if isStop (s.station n).requested then s.moveStation n { s.station n with state := .off } [] else s.retarget n := by
  unfold State.queuedChange
  dsimp only
  rw [h]

theorem State.queuedChange_of_raise (h : s.entryKind n = .raise) : s.queuedChange n =
    if isStop (s.station n).requested || opposite (s.station n).requested (s.station n).effective then
      s.moveStation n (s.station n).toStopping []
    else if speedAbove (s.station n).requested.speed (s.station n).effective.speed then s.retarget n
    else s.moveStation n { s.station n with state := .running, effective := (s.station n).requested } [] := by
  unfold State.queuedChange
  dsimp only
  rw [h]

/-- A retarget that keeps class and rank replaces the target where the entry stands. -/
theorem State.retarget_of_same {y : QueueEntry} (hfind : queueFind n (s.feeder (s.feederNo n)).queue = some y)
    (h : y.cls = (s.station n).entryClass) : s.retarget n =
      { s with feeders := s.feeders.put (s.feederNo n) { s.feeder (s.feederNo n) with
          queue := (s.feeder (s.feederNo n)).queue.map
            (fun x => if x.station = n then { x with target := (s.station n).requested } else x) } } := by
  unfold State.retarget
  dsimp only
  rw [queueRetarget_of_same hfind h]

section running

variable (he : (s.station n).effective.speed ≠ .off)
include he

theorem State.runningChange_of_end
    (h : (s.station n).requested.speed = .off ∨ (s.station n).requested.dir ≠ (s.station n).effective.dir) :
    s.runningChange n = s.moveStation n (s.station n).toStopping [] := if_pos ((endsRun_iff he).mpr h)

variable (hrun : (s.station n).requested.speed ≠ .off) (hdir : (s.station n).requested.dir = (s.station n).effective.dir)
include hrun hdir

theorem State.runningChange_of_lower
    (h : speedCode (s.station n).requested.speed < speedCode (s.station n).effective.speed) :
    s.runningChange n = s.putStation n { s.station n with effective := (s.station n).requested } := by
  unfold State.runningChange
  dsimp only
  rw [endsRun_eq_false he hrun hdir, if_neg nofun, if_pos ((speedAbove_iff _ _).mpr h)]

theorem State.runningChange_of_higher
    (h : speedCode (s.station n).effective.speed < speedCode (s.station n).requested.speed) :
    s.runningChange n = s.moveStation n (s.station n).toQueued [] := by
  unfold State.runningChange
  dsimp only
  rw [endsRun_eq_false he hrun hdir, if_neg nofun, if_neg (mt (speedAbove_iff _ _).mp (by omega)),
    if_pos ((speedAbove_iff _ _).mpr h)]

theorem State.runningChange_of_same (h : (s.station n).requested.speed = (s.station n).effective.speed) :
    s.runningChange n = s := by
  unfold State.runningChange
  dsimp only
  rw [endsRun_eq_false he hrun hdir, if_neg nofun, h, if_neg (mt (speedAbove_iff _ _).mp (Nat.lt_irrefl _)),
    if_neg (mt (speedAbove_iff _ _).mp (Nat.lt_irrefl _))]

end running

/-! ### A request set (R7, R10) -/

theorem Station.requested_of_none {d : Station} (h : d.target = none) : d.requested = d.request := by
  unfold Station.requested
  rw [h]

theorem Station.entryClass_of_none {d : Station} (h : d.target = none) : d.entryClass = .control := by
  unfold Station.entryClass
  rw [h]

/-- A request differs from another: they are not equal and not both STOP (R9). -/
def commandsDiffer (c c' : FanCommand) : Prop := c ≠ c' ∧ ¬(c.speed = .off ∧ c'.speed = .off)

theorem sameCommand_iff (c c' : FanCommand) : sameCommand c' c = true ↔ ¬commandsDiffer c c' := by
  unfold sameCommand commandsDiffer
  rw [Bool.or_eq_true, Bool.and_eq_true, isStop_iff, isStop_iff, beq_iff_eq]
  tauto

/-- A new request of a station under control is a change exactly if the commands differ. -/
theorem requestChanged_iff {d : Station} (c : FanCommand) : requestChanged d { d with request := c } = true ↔
    d.target = none ∧ commandsDiffer c d.request := by
  have sameClass : ({ d with request := c } : Station).entryClass = d.entryClass := rfl
  unfold requestChanged
  rw [sameClass, bne_self_eq_false, Bool.or_false, Bool.not_eq_true', ← Bool.not_eq_true, sameCommand_iff, not_not]
  by_cases hnone : d.target = none
  · have changed : ({ d with request := c } : Station).requested = c := Station.requested_of_none hnone
    rw [Station.requested_of_none hnone, changed]
    exact (and_iff_right hnone).symm
  · obtain ⟨t, ht⟩ := Option.ne_none_iff_exists'.mp hnone
    have sameRequest : ({ d with request := c } : Station).requested = d.requested := by
      unfold Station.requested
      dsimp only
      rw [ht]
    rw [sameRequest]
    exact ⟨fun h => absurd rfl h.1, fun h => absurd h.1 hnone⟩

/-- The state in which a station's request is set and nothing else. -/
def State.requestStored (s : State) (n : StationNo) (c : FanCommand) : State :=
  { s with stations := s.stations.put n { s.station n with request := c } }

theorem State.station_requestStored (s : State) (n : StationNo) (c : FanCommand) :
    (s.requestStored n c).station n = { s.station n with request := c } := Table.nth_put_self _ _ _

theorem State.setRequest_eq (s : State) (n : StationNo) (c : FanCommand) : s.setRequest n c =
    if requestChanged (s.station n) { s.station n with request := c } then (s.requestStored n c).lifecycleChange n
    else s.requestStored n c := by
  have put : s.putStation n { s.station n with request := c } = s.requestStored n c := s.putStation_of_shown n _ rfl
  unfold State.setRequest State.claim
  rw [put]

/-- A request that changes nothing, or that waits, is only stored. -/
theorem State.setRequest_of_stored {c : FanCommand}
    (h : ¬commandsDiffer c (s.station n).request ∨ (s.station n).target ≠ none ∨ (s.station n).state = .stopping
      ∨ (s.station n).state = .dwell ∨ (s.station n).state = .tripped ∨ (s.station n).state = .locked) :
    s.setRequest n c = s.requestStored n c := by
  rw [State.setRequest_eq]
  split
  · next hchanged =>
    obtain ⟨hnone, hdiffer⟩ := (requestChanged_iff c).mp hchanged
    refine State.lifecycleChange_of_resting ?_
    rw [State.station_requestStored]
    obtain h | h | h := h
    · exact absurd hdiffer h
    · exact absurd hnone h
    · exact h
  · rfl

theorem State.setRequest_of_changed {c : FanCommand} (hnone : (s.station n).target = none)
    (h : commandsDiffer c (s.station n).request) : s.setRequest n c = (s.requestStored n c).lifecycleChange n := by
  rw [State.setRequest_eq, if_pos ((requestChanged_iff c).mpr ⟨hnone, h⟩)]

/-- A station whose request was set moves within service: record, feeder and entry on the work list. -/
theorem State.move_requestStored {c : FanCommand} {d' : Station} (h : d'.state ≠ (s.station n).state)
    (hout : (s.station n).state.out = d'.state.out) : (s.requestStored n c).moveStation n d' [] =
      { s with
        stations := s.stations.put n { d' with entered := true, writeBackPending := true }
        feeders := s.feeders.put (s.feederNo n) (feederAfterMove s n { s.station n with request := c } d')
        writer := s.writer.placeOnce (.station n) } := by
  have unreported : availabilityChange s n { s.station n with request := c } d' = [] :=
    availabilityChange_of_same s n hout
  have moved := s.moveStation_put (n := n) (d := { s.station n with request := c }) h []
  rw [unreported, List.append_nil] at moved
  exact moved

/-- The feeder of a station whose request was set and that leaves its state. -/
theorem State.left_requestStored (s : State) (n : StationNo) (c : FanCommand) {d' : Station} (h : d'.state ≠ .queued) :
    feederAfterMove s n { s.station n with request := c } d' = s.feederLeft n := feederAfterMove_of_left s n rfl h

/-- A station in neither QUEUED nor STARTING that moves to a state other than QUEUED touches no queue and no slot. -/
theorem State.move_requestStored_of_idle {c : FanCommand} {d' : Station} (h : d'.state ≠ (s.station n).state)
    (hout : (s.station n).state.out = d'.state.out) (hqueued : (s.station n).state ≠ .queued)
    (hstarting : (s.station n).state ≠ .starting) (hleft : d'.state ≠ .queued) :
    (s.requestStored n c).moveStation n d' [] =
      { s with
        stations := s.stations.put n { d' with entered := true, writeBackPending := true }
        writer := s.writer.placeOnce (.station n) } := by
  rw [State.move_requestStored h hout, s.left_requestStored n c hleft, State.feederLeft_of_idle hqueued hstarting,
    State.feeders_put_self]

/-- A station under control that moves to QUEUED from a state other than QUEUED and STARTING joins its feeder's queue. -/
theorem State.move_requestStored_to_queue {c : FanCommand} {kind : EntryKind} (hnone : (s.station n).target = none)
    (hkind : (if isStop (s.station n).effective then EntryKind.start else EntryKind.raise) = kind)
    (hout : (s.station n).state.out = false) (hqueued : (s.station n).state ≠ .queued)
    (hstarting : (s.station n).state ≠ .starting) :
    (s.requestStored n c).moveStation n ({ s.station n with request := c } : Station).toQueued [] =
      { s with
        stations := s.stations.put n { s.station n with
          request := c, state := .queued, timer := none, entered := true, writeBackPending := true }
        feeders := s.feeders.put (s.feederNo n) { s.feeder (s.feederNo n) with
          queue := queueInsert { station := n, kind := kind, target := c, cls := .control, entryTime := s.tenths }
            (s.feeder (s.feederNo n)).queue }
        writer := s.writer.placeOnce (.station n) } := by
  let d' := ({ s.station n with request := c } : Station).toQueued
  have entry : queueEntryFor s n d' =
      { station := n, kind := kind, target := c, cls := .control, entryTime := s.tenths } := by
    have target : d'.target = none := hnone
    unfold queueEntryFor
    rw [Station.requested_of_none target, Station.entryClass_of_none target, ← hkind]
    rfl
  rw [State.move_requestStored (d' := d') (Ne.symm hqueued) hout,
    feederAfterMove_of_queued (d := { s.station n with request := c }) s n rfl hqueued rfl, entry,
    State.feederLeft_of_idle hqueued hstarting]
  rfl

/-- A station leaves QUEUED: its entry leaves the queue. -/
theorem State.move_requestStored_of_queued {c : FanCommand} (h : (s.station n).state = .queued) {d' : Station} (hleft : d'.state ≠ .queued)
    (hout : d'.state.out = false) : (s.requestStored n c).moveStation n d' [] =
      { s with
        stations := s.stations.put n { d' with entered := true, writeBackPending := true }
        feeders := s.feeders.put (s.feederNo n) { s.feeder (s.feederNo n) with
          queue := (s.feeder (s.feederNo n)).queue.filter (fun y => y.station != n) }
        writer := s.writer.placeOnce (.station n) } := by
  rw [State.move_requestStored (by rw [h]; exact hleft) (by rw [h, hout]; rfl), s.left_requestStored n c hleft,
    State.feederLeft_of_queued h]

/-- The station's entry in the queue, as the change finds it. -/
theorem State.entryKind_requestStored (c : FanCommand) {y : QueueEntry} (hfind : queueFind n (s.feeder (s.feederNo n)).queue = some y) :
    (s.requestStored n c).entryKind n = y.kind := State.entryKind_of (s := s.requestStored n c) hfind

/-! ### A change of request, by the state (R30, R32, R33, R39, R40) -/

section changed

variable {c : FanCommand} (hnone : (s.station n).target = none) (hdiffer : commandsDiffer c (s.station n).request)
include hnone hdiffer

/-- The change as it is presented to the lifecycle: state, effective and requested command of the station. -/
theorem State.setRequest_presented : s.setRequest n c = (s.requestStored n c).lifecycleChange n
    ∧ ((s.requestStored n c).station n).state = (s.station n).state
    ∧ ((s.requestStored n c).station n).effective = (s.station n).effective
    ∧ ((s.requestStored n c).station n).requested = c
    ∧ ((s.requestStored n c).station n).entryClass = .control := by
  rw [State.station_requestStored]
  exact ⟨State.setRequest_of_changed hnone hdiffer, rfl, rfl, Station.requested_of_none hnone,
    Station.entryClass_of_none hnone⟩

theorem State.setRequest_of_off_stop (h : (s.station n).state = .off) (hc : c.speed = .off) :
    s.setRequest n c = s.requestStored n c := by
  obtain ⟨presented, state, -, requested, -⟩ := State.setRequest_presented hnone hdiffer
  rw [presented, State.lifecycleChange_of_off (state.trans h), requested, if_pos ((isStop_iff c).mpr hc)]

theorem State.setRequest_of_off_run (h : (s.station n).state = .off) (hc : c.speed ≠ .off)
    (he : (s.station n).effective.speed = .off) : s.setRequest n c =
      { s with
        stations := s.stations.put n { s.station n with
          request := c, state := .queued, timer := none, entered := true, writeBackPending := true }
        feeders := s.feeders.put (s.feederNo n) { s.feeder (s.feederNo n) with
          queue := queueInsert { station := n, kind := .start, target := c, cls := .control, entryTime := s.tenths }
            (s.feeder (s.feederNo n)).queue }
        writer := s.writer.placeOnce (.station n) } := by
  obtain ⟨presented, state, -, requested, -⟩ := State.setRequest_presented hnone hdiffer
  rw [presented, State.lifecycleChange_of_off (state.trans h), requested, if_neg (mt (isStop_iff c).mp hc),
    State.station_requestStored]
  exact State.move_requestStored_to_queue hnone (if_pos ((isStop_iff _).mpr he)) (by rw [h]; rfl) (by rw [h]; nofun)
    (by rw [h]; nofun)

/-- A retarget of the station's entry, which keeps its place. -/
theorem State.retarget_requestStored {y : QueueEntry} (hfind : queueFind n (s.feeder (s.feederNo n)).queue = some y)
    (hcls : y.cls = .control) : (s.requestStored n c).retarget n =
      { s with
        stations := s.stations.put n { s.station n with request := c }
        feeders := s.feeders.put (s.feederNo n) { s.feeder (s.feederNo n) with
          queue := (s.feeder (s.feederNo n)).queue.map (fun x => if x.station = n then { x with target := c } else x) } } := by
  obtain ⟨-, -, -, requested, cls⟩ := State.setRequest_presented hnone hdiffer
  have kept := State.retarget_of_same (s := s.requestStored n c) hfind (hcls.trans cls.symm)
  rw [requested] at kept
  exact kept

section queued

variable {y : QueueEntry} (h : (s.station n).state = .queued)
  (hfind : queueFind n (s.feeder (s.feederNo n)).queue = some y)
include h hfind

theorem State.setRequest_of_start_stop (hkind : y.kind = .start) (hc : c.speed = .off) : s.setRequest n c =
    { s with
      stations := s.stations.put n { s.station n with
        request := c, state := .off, entered := true, writeBackPending := true }
      feeders := s.feeders.put (s.feederNo n) { s.feeder (s.feederNo n) with
        queue := (s.feeder (s.feederNo n)).queue.filter (fun y => y.station != n) }
      writer := s.writer.placeOnce (.station n) } := by
  obtain ⟨presented, state, -, requested, -⟩ := State.setRequest_presented hnone hdiffer
  rw [presented, State.lifecycleChange_of_queued (state.trans h),
    State.queuedChange_of_start ((State.entryKind_requestStored c hfind).trans hkind), requested,
    if_pos ((isStop_iff c).mpr hc), State.station_requestStored]
  exact State.move_requestStored_of_queued h nofun rfl

/-- A change that the entry follows where it stands. -/
theorem State.setRequest_of_retarget (hcls : y.cls = .control)
    (hchange : (s.requestStored n c).queuedChange n = (s.requestStored n c).retarget n) : s.setRequest n c =
      { s with
        stations := s.stations.put n { s.station n with request := c }
        feeders := s.feeders.put (s.feederNo n) { s.feeder (s.feederNo n) with
          queue := (s.feeder (s.feederNo n)).queue.map (fun x => if x.station = n then { x with target := c } else x) } } := by
  obtain ⟨presented, state, -⟩ := State.setRequest_presented hnone hdiffer
  rw [presented, State.lifecycleChange_of_queued (state.trans h), hchange,
    State.retarget_requestStored hnone hdiffer hfind hcls]

omit h in
theorem State.queuedChange_of_start_run (hkind : y.kind = .start) (hc : c.speed ≠ .off) :
    (s.requestStored n c).queuedChange n = (s.requestStored n c).retarget n := by
  obtain ⟨-, -, -, requested, -⟩ := State.setRequest_presented hnone hdiffer
  rw [State.queuedChange_of_start ((State.entryKind_requestStored c hfind).trans hkind), requested,
    if_neg (mt (isStop_iff c).mp hc)]

variable (hkind : y.kind = .raise) (he : (s.station n).effective.speed ≠ .off)
include hkind he

theorem State.setRequest_of_raise_end (hc : c.speed = .off ∨ c.dir ≠ (s.station n).effective.dir) : s.setRequest n c =
    { s with
      stations := s.stations.put n { s.station n with
        request := c, state := .stopping, effective := { (s.station n).effective with speed := .off }, timer := none
        stopFlag := false, entered := true, writeBackPending := true }
      feeders := s.feeders.put (s.feederNo n) { s.feeder (s.feederNo n) with
        queue := (s.feeder (s.feederNo n)).queue.filter (fun y => y.station != n) }
      writer := s.writer.placeOnce (.station n) } := by
  obtain ⟨presented, state, effective, requested, -⟩ := State.setRequest_presented hnone hdiffer
  rw [presented, State.lifecycleChange_of_queued (state.trans h),
    State.queuedChange_of_raise ((State.entryKind_requestStored c hfind).trans hkind), requested, effective,
    if_pos ((endsRun_iff he).mpr hc), State.station_requestStored]
  exact State.move_requestStored_of_queued h nofun rfl

omit h in
theorem State.queuedChange_of_raise_higher (hdir : c.dir = (s.station n).effective.dir)
    (hc : speedCode (s.station n).effective.speed < speedCode c.speed) :
    (s.requestStored n c).queuedChange n = (s.requestStored n c).retarget n := by
  obtain ⟨-, -, effective, requested, -⟩ := State.setRequest_presented hnone hdiffer
  rw [State.queuedChange_of_raise ((State.entryKind_requestStored c hfind).trans hkind), requested, effective,
    endsRun_eq_false he (speed_ne_off_of_above hc) hdir, if_neg nofun, if_pos ((speedAbove_iff _ _).mpr hc)]

theorem State.setRequest_of_raise_done (hdir : c.dir = (s.station n).effective.dir) (hc : c.speed ≠ .off)
    (hle : speedCode c.speed ≤ speedCode (s.station n).effective.speed) : s.setRequest n c =
      { s with
        stations := s.stations.put n { s.station n with
          request := c, state := .running, effective := c, entered := true, writeBackPending := true }
        feeders := s.feeders.put (s.feederNo n) { s.feeder (s.feederNo n) with
          queue := (s.feeder (s.feederNo n)).queue.filter (fun y => y.station != n) }
        writer := s.writer.placeOnce (.station n) } := by
  obtain ⟨presented, state, effective, requested, -⟩ := State.setRequest_presented hnone hdiffer
  rw [presented, State.lifecycleChange_of_queued (state.trans h),
    State.queuedChange_of_raise ((State.entryKind_requestStored c hfind).trans hkind), requested, effective,
    endsRun_eq_false he hc hdir, if_neg nofun, if_neg (mt (speedAbove_iff _ _).mp (Nat.not_lt.mpr hle)),
    State.station_requestStored]
  exact State.move_requestStored_of_queued h nofun rfl

end queued

theorem State.setRequest_of_starting_run (h : (s.station n).state = .starting) (hc : c.speed ≠ .off) :
    s.setRequest n c = s.requestStored n c := by
  obtain ⟨presented, state, -, requested, -⟩ := State.setRequest_presented hnone hdiffer
  rw [presented, State.lifecycleChange_of_starting (state.trans h), requested, if_neg (mt (isStop_iff c).mp hc)]

theorem State.setRequest_of_starting_stop (h : (s.station n).state = .starting) (hc : c.speed = .off) : s.setRequest n c =
    { s with
      stations := s.stations.put n { s.station n with
        request := c, state := .stopping, effective := { (s.station n).effective with speed := .off }, timer := none
        stopFlag := false, entered := true, writeBackPending := true }
      feeders := s.feeders.put (s.feederNo n) { s.feeder (s.feederNo n) with
        slotsInUse := (s.feeder (s.feederNo n)).slotsInUse - 1 }
      writer := s.writer.placeOnce (.station n) } := by
  obtain ⟨presented, state, -, requested, -⟩ := State.setRequest_presented hnone hdiffer
  rw [presented, State.lifecycleChange_of_starting (state.trans h), requested, if_pos ((isStop_iff c).mpr hc),
    State.station_requestStored, State.move_requestStored (by rw [h]; nofun) (by rw [h]; rfl),
    s.left_requestStored n c (by nofun), State.feederLeft_of_starting h]
  rfl

section running

variable (h : (s.station n).state = .running) (he : (s.station n).effective.speed ≠ .off)
include h he

/-- In RUNNING the change is taken by the RUNNING rule, at the station's effective command. -/
theorem State.setRequest_of_running : s.setRequest n c = (s.requestStored n c).runningChange n
    ∧ ((s.requestStored n c).station n).effective.speed ≠ .off := by
  obtain ⟨presented, state, effective, -⟩ := State.setRequest_presented hnone hdiffer
  exact ⟨presented.trans (State.lifecycleChange_of_running (state.trans h)), by rwa [effective]⟩

theorem State.setRequest_of_running_end (hc : c.speed = .off ∨ c.dir ≠ (s.station n).effective.dir) : s.setRequest n c =
    { s with
      stations := s.stations.put n { s.station n with
        request := c, state := .stopping, effective := { (s.station n).effective with speed := .off }, timer := none
        stopFlag := false, entered := true, writeBackPending := true }
      writer := s.writer.placeOnce (.station n) } := by
  obtain ⟨-, -, effective, requested, -⟩ := State.setRequest_presented hnone hdiffer
  obtain ⟨change, hrun⟩ := State.setRequest_of_running hnone hdiffer h he
  rw [change, State.runningChange_of_end hrun (by rwa [requested, effective]), State.station_requestStored]
  exact State.move_requestStored_of_idle (by rw [h]; nofun) (by rw [h]; rfl) (by rw [h]; nofun) (by rw [h]; nofun) nofun

variable (hdir : c.dir = (s.station n).effective.dir)
include hdir

theorem State.setRequest_of_running_lower (hc : c.speed ≠ .off)
    (hlower : speedCode c.speed < speedCode (s.station n).effective.speed) : s.setRequest n c =
      { s with
        stations := s.stations.put n { s.station n with request := c, effective := c, writeBackPending := true }
        writer := s.writer.placeOnce (.station n) } := by
  obtain ⟨-, -, effective, requested, -⟩ := State.setRequest_presented hnone hdiffer
  obtain ⟨change, hrun⟩ := State.setRequest_of_running hnone hdiffer h he
  have shown : ((s.requestStored n c).station n).shown
      ≠ ({ (s.requestStored n c).station n with effective := c } : Station).shown := fun heq => by
    have same : ((s.requestStored n c).station n).effective = c := congrArg Prod.fst heq
    rw [← effective, same] at hlower
    exact Nat.lt_irrefl _ hlower
  rw [change, State.runningChange_of_lower hrun (by rwa [requested]) (by rwa [requested, effective])
    (by rwa [requested, effective]), requested, State.putStation_of_change _ _ _ shown, State.station_requestStored]
  show ({ s with stations := (s.stations.put n _).put n _, writer := _ } : State) = _
  rw [Table.put_put]
  rfl

theorem State.setRequest_of_running_same (hc : c.speed ≠ .off) (hsame : c.speed = (s.station n).effective.speed) :
    s.setRequest n c = s.requestStored n c := by
  obtain ⟨-, -, effective, requested, -⟩ := State.setRequest_presented hnone hdiffer
  obtain ⟨change, hrun⟩ := State.setRequest_of_running hnone hdiffer h he
  rw [change, State.runningChange_of_same hrun (by rwa [requested]) (by rwa [requested, effective])
    (by rwa [requested, effective])]

theorem State.setRequest_of_running_higher
    (hhigher : speedCode (s.station n).effective.speed < speedCode c.speed) : s.setRequest n c =
      { s with
        stations := s.stations.put n { s.station n with
          request := c, state := .queued, timer := none, entered := true, writeBackPending := true }
        feeders := s.feeders.put (s.feederNo n) { s.feeder (s.feederNo n) with
          queue := queueInsert { station := n, kind := .raise, target := c, cls := .control, entryTime := s.tenths }
            (s.feeder (s.feederNo n)).queue }
        writer := s.writer.placeOnce (.station n) } := by
  obtain ⟨-, -, effective, requested, -⟩ := State.setRequest_presented hnone hdiffer
  obtain ⟨change, hrun⟩ := State.setRequest_of_running hnone hdiffer h he
  rw [change, State.runningChange_of_higher hrun (by rw [requested]; exact speed_ne_off_of_above hhigher)
    (by rwa [requested, effective]) (by rwa [requested, effective]), State.station_requestStored]
  exact State.move_requestStored_to_queue hnone (if_neg (mt (isStop_iff _).mp he)) (by rw [h]; rfl) (by rw [h]; nofun)
    (by rw [h]; nofun)

end running

end changed

/-- Settles O13, state by state: the write is the request set at its one station. -/
theorem requestFromOffQueuesTheStation : Obligations.RequestFromOffQueuesTheStation := by
  intro w rest x n s hpart hbuffer hnone harea hx hk habsorb halone c d e f fd taken stored shown moved stopping entry
    without retargeted changed
  have executed : exec .commandWrite s = .next (taken.setRequest n c) := by
    rw [(exec_commandWrite_of hpart hbuffer hnone harea hx hk habsorb).2, State.addressed_of_alone halone,
      State.takeClaims_singleton]
    rfl
  have run : ∀ {t}, taken.setRequest n c = t → exec .commandWrite s = .next t := fun h => by rw [executed, h]
  refine ⟨fun h => run (State.setRequest_of_stored (s := taken) h), fun hdiffer htarget => ?_⟩
  refine ⟨fun hstate hc => run (State.setRequest_of_off_stop (s := taken) htarget hdiffer hstate hc),
    fun hstate hc he => run (State.setRequest_of_off_run (s := taken) htarget hdiffer hstate hc he),
    fun y hstate hfind hcls => ⟨fun hkind => ⟨fun hc => ?_, fun hc => ?_⟩, fun hkind he => ⟨fun hc => ?_,
      fun hdir hhigher => ?_, fun hdir hc hle => ?_⟩⟩,
    fun hstate => ⟨fun hc => run (State.setRequest_of_starting_run (s := taken) htarget hdiffer hstate hc),
      fun hc => run (State.setRequest_of_starting_stop (s := taken) htarget hdiffer hstate hc)⟩,
    fun hstate he => ⟨fun hc => run (State.setRequest_of_running_end (s := taken) htarget hdiffer hstate he hc),
      fun hc => ?_, fun hdir hc hlower =>
        run (State.setRequest_of_running_lower (s := taken) htarget hdiffer hstate he hdir hc hlower),
      fun hdir hhigher => run (State.setRequest_of_running_higher (s := taken) htarget hdiffer hstate he hdir hhigher)⟩⟩
  · exact run (State.setRequest_of_retarget (s := taken) htarget hdiffer hstate hfind hcls
      (State.queuedChange_of_start_run htarget hdiffer hfind hkind hc))
  · exact run (State.setRequest_of_start_stop (s := taken) htarget hdiffer hstate hfind hkind hc)
  · exact run (State.setRequest_of_raise_end (s := taken) htarget hdiffer hstate hfind hkind he hc)
  · exact run (State.setRequest_of_retarget (s := taken) htarget hdiffer hstate hfind hcls
      (State.queuedChange_of_raise_higher htarget hdiffer hfind hkind he hdir hhigher))
  · exact run (State.setRequest_of_raise_done (s := taken) htarget hdiffer hstate hfind hkind he hdir hc hle)
  · exact run (State.setRequest_of_running_same (s := taken) htarget hdiffer hstate he (congrArg FanCommand.dir hc)
      (fun hoff => he ((congrArg FanCommand.speed hc).symm.trans hoff)) (congrArg FanCommand.speed hc))

end Sys2Proof.Machine
end

section
/-! PROOF. The stations' and feeders' own events: read-in, grants, timers, write-backs (O41, O43-O46). -/

namespace Sys2Proof.Machine

open Sys2Proof

/-! ### The read-in (R23, R182) -/

theorem commandReadIn_eq (w : Word) : commandReadIn w =
    { dir := if w.getLsbD 2 then .rev else .fwd
      speed := if w.toNat % 4 = 1 then .low else if w.toNat % 4 = 2 then .high else .off } := by
  have below : w.toNat % 4 < 4 := Nat.mod_lt _ (by omega)
  unfold commandReadIn commandDir dirOfBit
  rw [flag_eq, commandSpeed_eq]
  revert below
  generalize w.toNat % 4 = code
  intro below
  interval_cases code <;> rfl

theorem Station.readIn_eq (w : Word) : Station.readIn w =
    { Station.reset with
      state := if (commandReadIn w).speed = .off then .off else .running, request := commandReadIn w
      effective := commandReadIn w, writeBackPending := true } := by
  unfold Station.readIn
  rw [if_congr (isStop_iff _) rfl rfl]

/-- Settles O41: the station read in, its request and effective command the word's. -/
theorem readInSetsTheStation : Obligations.ReadInSetsTheStation := by
  intro q a n s hpart hflight w c
  have read : commandReadIn w = c := commandReadIn_eq w
  have taken : s.readIn = s.finish.readInStation n w := by
    unfold State.readIn
    rw [s.flightOwner_of hflight, s.flightWord_of hflight]
    exact if_pos hpart
  have executed : exec .readIn s = .next s.readIn := rfl
  rw [executed, taken, s.finish_read hflight, State.readInStation, Station.readIn_eq, read]
  rfl

/-! ### Grants (R57, R63) -/

theorem State.grantReady_iff {s : State} {f : FeederNo} : s.grantReady f = true ↔ s.activeFeeder f = true
    ∧ (s.feeder f).supply = .present ∧ (s.feeder f).slotsInUse < (Setup.feeder s.copy f.val).slots
    ∧ (s.feeder f).spacing = none ∧ (s.feeder f).queue ≠ [] := by
  unfold State.grantReady
  simp only [Bool.and_eq_true, beq_iff_eq, decide_eq_true_eq, Bool.not_eq_true', List.isEmpty_eq_false_iff, and_assoc]

theorem State.grant_of_not_ready {s : State} {f : FeederNo} (h : ¬s.grantReady f = true) : s.grant f = s := by
  obtain same | ⟨_, _, -, hready, -⟩ := s.grant_cases f
  · exact same
  · exact absurd hready h

theorem State.grant_of_ready {s : State} {f : FeederNo} {e : QueueEntry} {rest : List QueueEntry}
    (hq : (s.feeder f).queue = e :: rest) (h : s.grantReady f = true) : s.grant f = s.grantEntry f e rest := by
  unfold State.grant
  rw [hq]
  exact if_pos h

/-- The station of a granted entry. -/
theorem State.station_grantEntry_self (s : State) (f : FeederNo) (e : QueueEntry) (rest : List QueueEntry) :
    ∃ pending, (s.grantEntry f e rest).station e.station = { s.station e.station with
      state := .starting, effective := e.target, timer := none, entered := true, writeBackPending := pending } := by
  let d : Station := { (s.station e.station).toStarting e.target with entered := true }
  unfold State.grantEntry State.enterState
  rw [State.station_putStation_self]
  split
  · exact ⟨d.writeBackPending, rfl⟩
  · exact ⟨true, rfl⟩

theorem State.grantEntry_of_change {s : State} {e : QueueEntry} (h : (s.station e.station).state ≠ .starting)
    (f : FeederNo) (rest : List QueueEntry) :
    (s.grantEntry f e rest).station e.station = { s.station e.station with
        state := .starting, effective := e.target, timer := none, entered := true, writeBackPending := true }
      ∧ (s.grantEntry f e rest).writer = s.writer.placeOnce (.station e.station) := by
  let d : Station := { (s.station e.station).toStarting e.target with entered := true }
  have shown : (s.station e.station).shown ≠ d.shown := Station.shown_ne_of_state (Ne.symm h)
  have put := (s.putFeeder f { s.feeder f with
      queue := rest
      slotsInUse := (s.feeder f).slotsInUse + 1
      spacing := spacingAfterGrant (Setup.feeder s.copy f.val).spacing (s.feeder f).spacing }).putStation_of_change
    e.station d shown
  have granted : s.grantEntry f e rest = _ := put
  rw [granted]
  exact ⟨Table.nth_put_self _ _ _, rfl⟩

theorem ImageWriter.buffer_placeOnce (w : ImageWriter) (e : WorkEntry) : (w.placeOnce e).buffer = w.buffer := rfl

/-- Settles O43: the grant of the head entry, and no grant without its conditions. -/
theorem grantStartsTheHeadOfTheQueue : Obligations.GrantStartsTheHeadOfTheQueue := by
  intro f s hpart
  have executed : exec (.grant f) s = .next (s.grant f) := congrArg Host.Outcome.next (inGuard_of hpart fun t => t.grant f)
  refine ⟨fun x rest hq hactive hsupply hslots hspacing => ?_, fun hmissing => ?_⟩
  · have ready : s.grantReady f = true :=
      State.grantReady_iff.mpr ⟨hactive, hsupply, hslots, hspacing, by rw [hq]; nofun⟩
    obtain ⟨pending, station⟩ := s.station_grantEntry_self f x rest
    have buffer : (s.grantEntry f x rest).writer.buffer = s.writer.buffer := by
      unfold State.grantEntry State.enterState State.putStation
      dsimp only
      split <;> rfl
    have spacing : spacingAfterGrant (Setup.feeder s.copy f.val).spacing (s.feeder f).spacing =
        if (Setup.feeder s.copy f.val).spacing = 0 then none else some (Setup.feeder s.copy f.val).spacing := by
      rw [hspacing]; rfl
    refine ⟨_, executed.trans (congrArg _ (State.grant_of_ready hq ready)), ?_, ?_, ?_, ?_,
      fun h => State.grantEntry_of_change h f rest, fun m hm => s.station_grantEntry_ne f rest hm, rfl, buffer⟩
    · rw [← spacing]; rfl
    · rw [station]
    · rw [station]
    · rw [station]
  · have idle : s.grant f = s := State.grant_of_not_ready fun ready => by
      obtain ⟨hactive, hsupply, hslots, hspacing, hqueue⟩ := State.grantReady_iff.mp ready
      obtain h | h | h | h | h := hmissing
      · exact hqueue h
      · rw [h] at hactive; cases hactive
      · exact h hsupply
      · omega
      · exact h hspacing
    rw [executed, idle]

/-! ### A feeder's timers (R57, R69) -/

theorem placed_eq (lo width v : Nat) : placed lo width v = 2 ^ lo * (v % 2 ^ width) := Nat.mul_comm _ _

theorem feederRestoredRecord_eq (s : State) (f : FeederNo) : feederRestoredRecord s f =
    { kind := .feederRestored, stamp := s.stamp, subject := BitVec.ofNat 32 f.val, detailA := 0
      detailB := BitVec.ofNat 32 (256 * ((s.feeder f).slotsInUse % 16) + 65536 * ((s.feeder f).queue.length % 256)) } := by
  unfold feederRestoredRecord mkRecord
  rw [placed_eq, placed_eq]
  rfl

/-- Settles O44: both timers at their expiry. -/
theorem feederTimersExpire : Obligations.FeederTimersExpire := by
  intro f s hpart
  refine ⟨fun hdue => ?_, fun hsupply hdue => ⟨s.supplyRestored f, ?_, rfl, ?_⟩⟩
  · have executed : exec (.spacingExpiry f) s = .next (s.spacingExpiry f) :=
      congrArg Host.Outcome.next (inGuard_of hpart fun t => t.spacingExpiry f)
    rw [executed, State.spacingExpiry, if_pos ((Timer.due_iff _).mpr hdue)]
    rfl
  · have executed : exec (.restoreExpiry f) s = .next (s.restoreExpiry f) :=
      congrArg Host.Outcome.next (inGuard_of hpart fun t => t.restoreExpiry f)
    rw [executed, State.restoreExpiry, if_pos ⟨hsupply, (Timer.due_iff _).mpr hdue⟩]
  · rw [← feederRestoredRecord_eq]
    rfl

/-! ### A station's timer (R37, R43, R45) -/

theorem trippedRecord_eq (s : State) (n : StationNo) (cause : TripCause) (left : LifeState) : trippedRecord s n cause left =
    { kind := .stationTripped, stamp := s.stamp, subject := BitVec.ofNat 32 n.val, detailA := 0
      detailB := BitVec.ofNat 32 (tripCauseCode (some cause) + 16 * left.code) } := by
  unfold trippedRecord mkRecord
  rw [placed_of_lt (tripCauseCode_lt _), placed_of_lt left.code_lt, Nat.pow_zero, Nat.one_mul]
  rfl

theorem DriveState.code_lt (x : DriveState) : x.code < 2 ^ 2 := by cases x <;> decide

theorem stopTimeoutRecord_eq (s : State) (n : StationNo) (o : Option Observed) : stopTimeoutRecord s n o =
    { kind := .stopTimeout, stamp := s.stamp, subject := BitVec.ofNat 32 n.val, detailA := 0
      detailB := BitVec.ofNat 32 (match o with
        | none => 16
        | some x => x.drive.code) } := by
  unfold stopTimeoutRecord mkRecord
  cases o with
  | none => rfl
  | some x =>
    dsimp only
    rw [placed_of_lt x.drive.code_lt, Nat.pow_zero, Nat.one_mul]
    rfl

/-- What a transition out of a station's own record leaves: its record, its feeder's, and no other station's. -/
theorem State.moveStation_outcome {s : State} {n : StationNo} {d : Station} (h : d.state ≠ (s.station n).state)
    (l : List ReportRecord) :
    (s.moveStation n d l).station n = { d with entered := true, writeBackPending := true }
      ∧ (s.moveStation n d l).feeders = s.feeders.put (s.feederNo n) (feederAfterMove s n (s.station n) d)
      ∧ (s.moveStation n d l).writer = (s.writer.placeOnce (.station n)).handAll l
      ∧ (s.moveStation n d l).reports = s.reports ++ availabilityChange s n (s.station n) d
      ∧ (∀ m, m ≠ n → (s.moveStation n d l).station m = s.station m) ∧ s.stationsOnly (s.moveStation n d l) := by
  refine ⟨?_, ?_, ?_, ?_, fun m hm => s.station_moveStation_ne d l hm, s.stationsOnly_moveStation n d l⟩ <;>
    rw [State.moveStation_eq h]
  exact Table.nth_put_self _ _ _

/-- The feeders of a station that was in neither QUEUED nor STARTING and does not go to QUEUED. -/
theorem State.feeders_of_idle {s : State} {n : StationNo} {d : Station} (hqueued : (s.station n).state ≠ .queued)
    (hstarting : (s.station n).state ≠ .starting) (h : d.state ≠ .queued) :
    s.feeders.put (s.feederNo n) (feederAfterMove s n (s.station n) d) = s.feeders := by
  rw [feederAfterMove_of_left s n rfl h, State.feederLeft_of_idle hqueued hstarting, State.feeders_put_self]

theorem State.reports_of_same {s : State} {n : StationNo} {d : Station} (h : (s.station n).state.out = d.state.out) :
    s.reports ++ availabilityChange s n (s.station n) d = s.reports := by
  rw [availabilityChange_of_same s n h, List.append_nil]

/-- Settles O45, timer by timer. -/
theorem stationTimersExpire : Obligations.StationTimersExpire := by
  intro n s hpart htimer shown f fails
  have due : (s.station n).timer.due = true := (Timer.due_iff _).mpr htimer
  refine ⟨fun hstate => ?start, fun hstate => ?stop, fun hstate hstop => ?off, fun hstate hrun => ?queued⟩
  case start =>
    let cause : TripCause := if fails then .startFail else .noFeedback
    have executed : exec (.startTimeout n) s = .next (s.tripStation n cause) := by
      have timeout : s.startTimeout n = s.tripStation n cause := if_pos ⟨hstate, due⟩
      rw [← timeout]
      exact congrArg Host.Outcome.next (inGuard_of hpart fun t => t.startTimeout n)
    obtain ⟨station, feeders, writer, reports, others, only⟩ := State.moveStation_outcome (s := s) (n := n)
      (d := (s.station n).toTripped cause) (by rw [hstate]; nofun) [trippedRecord s n cause (s.station n).state]
    refine ⟨_, executed, congrArg Station.state station, congrArg Station.tripCause station,
      congrArg Station.effective station, congrArg Station.timer station, feeders.trans ?_, reports.trans ?_,
      writer.trans ?_, others, only⟩
    · rw [feederAfterMove_of_left s n rfl (by nofun), State.feederLeft_of_starting hstate]
    · rw [availabilityChange_of_other s n (by rw [hstate]; rfl)]
      rfl
    · rw [trippedRecord_eq, hstate]
      by_cases hf : fails
      · have isStartFail : cause = .startFail := if_pos hf
        rw [isStartFail, if_pos hf]
        rfl
      · have isNoFeedback : cause = .noFeedback := if_neg hf
        rw [isNoFeedback, if_neg hf]
        rfl
  case stop =>
    let d : Station := { (s.station n).toDwell (s.static n).dwell with stopFlag := true }
    have executed : exec (.stopTimeoutExpiry n) s =
        .next (s.moveStation n d [stopTimeoutRecord s n (s.station n).observed]) := by
      have timeout : s.stopTimeout n = _ := if_pos ⟨hstate, due⟩
      rw [← timeout]
      exact congrArg Host.Outcome.next (inGuard_of hpart fun t => t.stopTimeout n)
    obtain ⟨station, feeders, writer, reports, others, only⟩ := State.moveStation_outcome (s := s) (n := n) (d := d)
      (by rw [hstate]; nofun) [stopTimeoutRecord s n (s.station n).observed]
    refine ⟨_, executed, congrArg Station.state station, congrArg Station.timer station, congrArg Station.stopFlag station,
      congrArg Station.effective station, feeders.trans ?_, reports.trans ?_, writer.trans ?_, others, only⟩
    · exact State.feeders_of_idle (by rw [hstate]; nofun) (by rw [hstate]; nofun) nofun
    · exact State.reports_of_same (by rw [hstate]; rfl)
    · rw [stopTimeoutRecord_eq]
      rfl
  case off =>
    let d : Station := { s.station n with state := .off, timer := none }
    have executed : exec (.dwellExpiry n) s = .next (s.moveStation n d []) := by
      have timeout : s.dwellExpiry n = s.moveStation n d [] :=
        (if_pos ⟨hstate, due⟩).trans (if_pos ((isStop_iff _).mpr hstop))
      rw [← timeout]
      exact congrArg Host.Outcome.next (inGuard_of hpart fun t => t.dwellExpiry n)
    obtain ⟨station, feeders, writer, reports, others, only⟩ := State.moveStation_outcome (s := s) (n := n) (d := d)
      (by rw [hstate]; nofun) []
    exact ⟨_, executed, congrArg Station.state station, congrArg Station.timer station, writer,
      by rw [station], feeders.trans (State.feeders_of_idle (by rw [hstate]; nofun) (by rw [hstate]; nofun) nofun),
      reports.trans (State.reports_of_same (by rw [hstate]; rfl)), others, only⟩
  case queued =>
    let d : Station := (s.station n).toQueued
    have executed : exec (.dwellExpiry n) s = .next (s.moveStation n d []) := by
      have timeout : s.dwellExpiry n = s.moveStation n d [] :=
        (if_pos ⟨hstate, due⟩).trans (if_neg (mt (isStop_iff _).mp hrun))
      rw [← timeout]
      exact congrArg Host.Outcome.next (inGuard_of hpart fun t => t.dwellExpiry n)
    obtain ⟨station, feeders, writer, reports, others, only⟩ := State.moveStation_outcome (s := s) (n := n) (d := d)
      (by rw [hstate]; nofun) []
    have feeder : feederAfterMove s n (s.station n) d =
        { s.feeder f with queue := queueInsert (queueEntryFor s n d) (s.feeder f).queue } := by
      rw [feederAfterMove_of_queued s n rfl (by rw [hstate]; nofun) rfl,
        State.feederLeft_of_idle (by rw [hstate]; nofun) (by rw [hstate]; nofun)]
    rw [feeder] at feeders
    have joined : (s.moveStation n d []).feeder f =
        { s.feeder f with queue := queueInsert (queueEntryFor s n d) (s.feeder f).queue } := by
      unfold State.feeder
      rw [feeders]
      exact Table.nth_put_self _ _ _
    refine ⟨_, executed, congrArg Station.state station, congrArg Station.timer station, writer,
      by rw [station]; rfl, reports.trans (State.reports_of_same (by rw [hstate]; rfl)), fun hstop => ?_,
      ⟨queueEntryFor s n d, ?_, rfl, rfl, rfl⟩, others, only⟩
    · rw [feeders]
      have start : isStop d.effective = true := (isStop_iff _).mpr hstop
      unfold queueEntryFor
      rw [if_pos start]
      rfl
    · rw [joined]
      exact (mem_queueInsert _ _ _).mpr (.inl rfl)

/-! ### Confirmations (R19, R35, R42) -/

/-- The timeout that a confirming completion loads. -/
def State.confirmTimeout (s : State) (n : StationNo) : Timer :=
  if (s.station n).entered = true ∨ (s.station n).timer ≠ none then none
  else if (s.station n).state = .starting then some (s.static n).startTimeout
  else if (s.station n).state = .stopping then some (s.static n).stopTimeout
  else none

theorem State.confirm_eq (s : State) (n : StationNo) : s.confirm n =
    if s.confirmTimeout n = none then s
    else { s with stations := s.stations.put n { s.station n with timer := s.confirmTimeout n } } := by
  unfold State.confirm State.confirmTimeout
  dsimp only
  have put : ∀ k, s.putStation n { s.station n with timer := k } =
      { s with stations := s.stations.put n { s.station n with timer := k } } := fun k => s.putStation_of_shown n _ rfl
  rw [if_congr (or_congr Iff.rfl Option.isSome_iff_ne_none) rfl rfl, put, put]
  by_cases hwaits : (s.station n).entered = true ∨ (s.station n).timer ≠ none
  · rw [if_pos hwaits, if_pos hwaits]
    rfl
  · rw [if_neg hwaits, if_neg hwaits]
    split <;> next h => simp [h]

/-- Settles O46: the timer that a completion loads, and nothing else. -/
theorem confirmingCompletionStartsTheTimeout : Obligations.ConfirmingCompletionStartsTheTimeout := by
  intro q a d e n s hpart hflight timeout
  have delivered : s.writeBackCompletion = s.finish.confirm n := by
    unfold State.writeBackCompletion
    rw [s.flightOwner_of hflight]
    exact inGuard_finish_of hpart fun t => t.confirm n
  have same : s.finish.confirmTimeout n = timeout := by
    rw [s.finish_eq]
    rfl
  have confirmed := s.finish.confirm_eq n
  rw [same] at confirmed
  refine ⟨s.finish.confirm n, congrArg Host.Outcome.next delivered, ?_⟩
  rw [confirmed]
  by_cases hnone : timeout = none
  · rw [if_pos hnone]
    refine ⟨s.finish_completed, ?_, fun m => ?_⟩
    · exact s.finish_eq.trans (by rw [s.finish_stations])
    · rw [if_neg fun h => h.2 hnone, State.station, s.finish_stations]
      rfl
  · rw [if_neg hnone, s.finish_eq]
    refine ⟨Completed.of_finish rfl rfl, rfl, fun m => ?_⟩
    show (s.stations.put n _).nth m = _
    rw [Table.nth_put]
    by_cases hm : m = n
    · rw [if_pos hm, if_pos ⟨hm, hnone⟩]
      rfl
    · rw [if_neg hm, if_neg fun h => hm h.1]
      rfl

end Sys2Proof.Machine
end

section
/-! PROOF. A word of a source: the record it refreshes, its receiver, and what a receiver can change (O21, O24). -/

namespace Sys2Proof.Machine

open Sys2Proof

/-! ### The word handed on (R81) -/

/-- A source's record after its write at the present moment (R81). -/
def State.sourceAfter (s : State) (k : SourceNo) : Source :=
  { s.source k with
    freshness := .fresh, age := some (Setup.staleTime s.copy k.val), lastWrite := s.tenths
    lastInterval := min 65535 (s.tenths - (s.source k).lastWrite)
    maxInterval := max (s.source k).maxInterval (min 65535 (s.tenths - (s.source k).lastWrite)) }

/-- The state in which a word is handed to its receiver: the access has completed, the source's record is refreshed, and
a source that was STALE has made its record. -/
def State.wordHanded (s : State) (k : SourceNo) : State :=
  { s with
    mem := s.finish.mem, inFlight := none, sources := s.sources.put k (s.sourceAfter k), writer := s.wordWriter k }

theorem sourceRestoredRecord_eq (s : State) (k : SourceNo) {gap : Nat} (h : gap ≤ 65535) (count : Nat) :
    sourceRestoredRecord s k gap count =
      { kind := .sourceRestored, stamp := s.stamp, subject := BitVec.ofNat 32 k.val, detailA := 0
        detailB := BitVec.ofNat 32 (gap + 65536 * (count % 256)) } := by
  unfold sourceRestoredRecord mkRecord
  rw [placed_of_lt (by omega), placed_eq, Nat.pow_zero, Nat.one_mul]
  rfl

theorem State.sourceRefreshed_finish (s : State) (k : SourceNo) : s.finish.sourceRefreshed k = s.wordHanded k := by
  have record := sourceRestoredRecord_eq s k (Nat.min_le_left 65535 (s.tenths - (s.source k).lastWrite))
    (s.source k).staleCount
  rw [s.finish_eq]
  unfold State.sourceRefreshed State.wordHanded
  by_cases hstale : (s.source k).freshness = .stale
  · have writer : s.wordWriter k = s.writer.hand _ := if_pos hstale
    rw [writer, ← record]
    exact if_pos hstale
  · have writer : s.wordWriter k = s.writer := if_neg hstale
    rw [writer]
    exact if_neg hstale

section word

variable {q : Requester} {a : Nat} {d : Word} {e : BitVec 4} {k : SourceNo} {s : State} (hpart : s.part = .guard)
  (hflight : s.inFlight = some { requester := q, transfer := .write a d e, owner := .port (.source k) })
include hpart hflight

/-- SOURCE_WRITE of a source in use: its receiver takes the word. -/
theorem exec_sourceWrite_of_used (hused : sourceInUse s.copy k.val = true) :
    exec .sourceWrite s = .next ((s.wordHanded k).receive k d) := by
  have used : sourceInUse s.finish.copy k.val = true := by rwa [s.finish_copy]
  refine congrArg Host.Outcome.next ?_
  rw [s.sourceWrite_of hpart hflight, State.sourceWritten_eq, if_pos used, s.sourceRefreshed_finish]

theorem exec_sourceWrite_of_unused (hunused : sourceInUse s.copy k.val = false) :
    exec .sourceWrite s = .next (s.wordHanded k) := by
  have unused : ¬sourceInUse s.finish.copy k.val = true := by rw [s.finish_copy, hunused]; nofun
  refine congrArg Host.Outcome.next ?_
  rw [s.sourceWrite_of hpart hflight, State.sourceWritten_eq, if_neg unused, s.sourceRefreshed_finish]

end word

/-! ### What a receiver can change -/

theorem State.turns_changeLocks (s : State) (n : StationNo) (k : Nat) (b : Bool) (l : LockSet) :
    (s.changeLocks n k b l).turns = s.turns := by
  unfold State.changeLocks
  dsimp only
  split
  · rfl
  · split <;> rfl

theorem State.turns_wordSeen (s : State) (n : StationNo) (o : Observed) : (s.wordSeen n o).turns = s.turns := by
  unfold State.wordSeen
  split
  · rfl
  · exact State.turns_changeLocks _ _ _ _ _

theorem State.turns_unexpectedStop (s : State) (n : StationNo) : (s.unexpectedStop n).turns = s.turns := by
  unfold State.unexpectedStop
  split <;> rfl

theorem State.turns_startEnds (s : State) (n : StationNo) : (s.startEnds n).turns = s.turns := by
  unfold State.startEnds
  dsimp only
  split
  · rfl
  · exact State.turns_runningChange _ n

theorem State.turns_judgeDrive (s : State) (n : StationNo) (o : Observed) : (s.judgeDrive n o).turns = s.turns := by
  unfold State.judgeDrive
  dsimp only
  split
  case h_1 =>
    split
    · exact s.turns_unexpectedStop n
    · rfl
  case h_2 =>
    split
    · rfl
    · split
      · exact s.turns_startEnds n
      · rfl
  case h_3 =>
    split
    · exact s.turns_unexpectedStop n
    · rfl
  case h_4 => split <;> rfl
  all_goals rfl

theorem State.turns_stationWord (s : State) (n : StationNo) (o : Observed) : (s.stationWord n o).turns = s.turns := by
  have seen := s.turns_wordSeen n o
  rw [s.stationWord_eq]
  split
  · exact seen
  · split
    · split <;> exact seen
    · exact (State.turns_judgeDrive _ n o).trans seen

theorem State.turns_supplyReport (s : State) (f : FeederNo) (b : Bool) : (s.supplyReport f b).turns = s.turns := by
  unfold State.supplyReport
  split
  case h_3 => split <;> rfl
  all_goals rfl

/-- A receiver changes stations, feeders, the image writer, the reports, the monitor and the alarms only. -/
def State.heard (s t : State) : Prop := t = { s with
  stations := t.stations, feeders := t.feeders, writer := t.writer, reports := t.reports, airflow := t.airflow
  alarms := t.alarms }

theorem State.heard_of_stationsOnly {s t : State} (h : s.stationsOnly t) (hturns : t.turns = s.turns) : s.heard t := by
  have frame := h.1
  rw [hturns] at frame
  unfold State.heard
  rw [frame]

theorem State.heard_detectorWord (s : State) (g : SegmentNo) (c : Condition) : s.heard (s.detectorWord g c) := by
  unfold State.detectorWord
  dsimp only
  split
  · rfl
  · split <;> rfl

theorem State.heard_receive (s : State) (k : SourceNo) (w : Word) : s.heard (s.receive k w) := by
  unfold State.receive
  split
  · exact State.heard_of_stationsOnly (s.stationsOnly_stationWord _ _) (s.turns_stationWord _ _)
  · split
    · exact State.heard_of_stationsOnly (s.stationsOnly_supplyReport _ _) (s.turns_supplyReport _ _)
    · split
      · have frame := s.putAnemometer_eq (Fin.ofNat 8 (k.val - 72))
          { fresh := true, valid := anemometerValid w
            velocity := alongFwd (Setup.anemometerNegative s.copy (Fin.ofNat 8 (k.val - 72)).val) (anemometerReading w) }
        unfold State.anemometerWord
        rw [frame]
        rfl
      · exact s.heard_detectorWord _ _

theorem State.joins_detectorWord (s : State) (g : SegmentNo) (c : Condition) :
    Relation.ReflTransGen ImageWriter.Joins s.writer (s.detectorWord g c).writer := by
  unfold State.detectorWord
  dsimp only
  split
  · exact .refl
  · split
    case h_3 => exact ImageWriter.joins_handAll _ _
    all_goals exact .single (.record _ _)

theorem State.joins_supplyReport (s : State) (f : FeederNo) (b : Bool) :
    Relation.ReflTransGen ImageWriter.Joins s.writer (s.supplyReport f b).writer := by
  unfold State.supplyReport
  split
  case h_2 => exact .single (.record _ _)
  case h_3 =>
    split
    · exact .single (.record _ _)
    · exact .refl
  case h_6 => exact .single (.record _ _)
  all_goals exact .refl

/-- What a receiver does to the image writer is to hand records and to place stations' entries. -/
theorem State.joins_receive (s : State) (k : SourceNo) (w : Word) :
    Relation.ReflTransGen ImageWriter.Joins s.writer (s.receive k w).writer := by
  unfold State.receive
  split
  · exact (s.touches_stationWord _ _).keeps (P := fun u => Relation.ReflTransGen ImageWriter.Joins s.writer u.writer)
      (fun touch hu => hu.trans touch.joins) .refl
  · split
    · exact s.joins_supplyReport _ _
    · split
      · unfold State.anemometerWord
        rw [State.putAnemometer_writer]
      · exact s.joins_detectorWord _ _

/-- What records do to the buffer: they join its tail, or, once it is full, are counted as dropped. -/
def ImageWriter.filled (w w' : ImageWriter) : Prop :=
  (∃ more, w'.buffer = w.buffer ++ more) ∧ (16 ≤ w.buffer.length → w'.buffer = w.buffer) ∧ w.dropped ⊓ 65535 ≤ w'.dropped

theorem ImageWriter.filled_hand {w u : ImageWriter} (h : w.filled u) (r : ReportRecord) : w.filled (u.hand r) := by
  obtain ⟨⟨more, hmore⟩, hfull, hdropped⟩ := h
  unfold ImageWriter.hand Config.recordDepth
  split
  · next hroom =>
    refine ⟨⟨more ++ [r], ?_⟩, fun hw => absurd (hfull hw ▸ hroom) (by omega), hdropped⟩
    rw [← List.append_assoc, ← hmore]
  · refine ⟨⟨more, hmore⟩, hfull, ?_⟩
    show w.dropped ⊓ 65535 ≤ min 65535 (u.dropped + 1)
    omega

theorem ImageWriter.filled_joins {w w' : ImageWriter} (h : Relation.ReflTransGen ImageWriter.Joins w w') : w.filled w' :=
  ImageWriter.Joins.keeps (P := w.filled) (fun _ r hu => ImageWriter.filled_hand hu r) (fun _ _ hu => hu) h
    ⟨⟨[], (List.append_nil _).symm⟩, fun _ => rfl, Nat.min_le_left _ _⟩

/-- Settles O21: the record is refreshed, and the receiver comes after it. -/
theorem sourceWriteRefreshesItsRecord : Obligations.SourceWriteRefreshesItsRecord := by
  intro q a d e k s hpart hflight gap restored
  have stale : (s.source k).freshness = .stale → s.wordWriter k = s.writer.hand restored := fun h => if_pos h
  by_cases hused : sourceInUse s.copy k.val = true
  · have heard := (s.wordHanded k).heard_receive k d
    have filled := ImageWriter.filled_joins ((s.wordHanded k).joins_receive k d)
    refine ⟨_, exec_sourceWrite_of_used hpart hflight hused, ?_⟩
    generalize (s.wordHanded k).receive k d = t at heard filled
    have sources : t.sources = s.sources.put k (s.sourceAfter k) := by rw [heard]; rfl
    have completed : Completed s t := Completed.of_finish (by rw [heard]; rfl) (by rw [heard]; rfl)
    refine ⟨completed, sources, ?_, fun hunused => ?_, fun _ hstale => ?_⟩
    · rw [heard]
      rfl
    · rw [hused] at hunused
      cases hunused
    · obtain ⟨⟨more, hmore⟩, hfull, hdropped⟩ := filled
      have handed : (s.wordHanded k).writer = s.writer.hand restored := stale hstale
      rw [handed] at hmore hfull hdropped
      refine ⟨fun hroom => ⟨more, ?_⟩, fun hbuffer => ?_⟩
      · have kept : (s.writer.hand restored).buffer = s.writer.buffer ++ [restored] := by
          rw [ImageWriter.hand, if_pos (show _ < Config.recordDepth from hroom)]
        rw [hmore, kept, List.append_assoc]
        rfl
      · have dropped : s.writer.hand restored = s.writer.countDrop := if_neg (Nat.not_lt.mpr hbuffer)
        rw [dropped] at hfull hdropped
        refine ⟨hfull hbuffer, Nat.le_trans ?_ hdropped⟩
        show min 65535 (s.writer.dropped + 1) ≤ min (min 65535 (s.writer.dropped + 1)) 65535
        omega
  · have unused : sourceInUse s.copy k.val = false := by simpa using hused
    refine ⟨_, exec_sourceWrite_of_unused hpart hflight unused, Completed.of_finish rfl rfl, rfl, rfl, fun _ => ?_,
      fun h => absurd h hused⟩
    rfl

/-! ### The word of a feeder (R66-R73) -/

theorem supplyReported_iff (w : Word) : supplyReported w = true ↔ w.toNat % 256 = 1 := by
  unfold supplyReported
  rw [bits_low_byte, beq_iff_eq]

theorem Supply.code_lt (x : Supply) : x.code < 2 ^ 2 := by cases x <;> decide

theorem feederLostRecord_eq (s : State) (f : FeederNo) : feederLostRecord s f =
    { kind := .feederLost, stamp := s.stamp, subject := BitVec.ofNat 32 f.val, detailA := 0
      detailB := BitVec.ofNat 32 ((s.feeder f).supply.code
        + (256 * ((s.feeder f).slotsInUse % 16) + 65536 * ((s.feeder f).queue.length % 256))) } := by
  unfold feederLostRecord mkRecord
  rw [placed_of_lt (Supply.code_lt _), placed_eq, placed_eq, Nat.pow_zero, Nat.one_mul, Nat.add_assoc]
  rfl

/-- The word of a feeder's source is a supply report. -/
theorem State.receive_of_feeder (s : State) {f : FeederNo} {k : SourceNo} (h : k.val = 64 + f.val) (w : Word) :
    s.receive k w = s.supplyReport f (supplyReported w) := by
  have hf := f.isLt
  have feeder : Fin.ofNat 8 (k.val - 64) = f := Fin.ext (by show (k.val - 64) % 8 = f.val; omega)
  unfold State.receive
  rw [dif_neg (by omega), if_pos (by omega), feeder]

theorem sourceInUse_feeder {c : Cells Word} {f : FeederNo} {k : Nat} (h : k = 64 + f.val) :
    sourceInUse c k = decide (f.val < Setup.feederCount c) := by
  have hf := f.isLt
  have number : k - 64 = f.val := by omega
  unfold sourceInUse
  rw [if_neg (by omega), if_pos (by omega), number]

theorem State.supplyReport_of_absent {s : State} {f : FeederNo} (h : (s.feeder f).supply ≠ .lost) :
    s.supplyReport f false = s.supplyLost f := by
  unfold State.supplyReport
  cases hsupply : (s.feeder f).supply with
  | lost => exact absurd hsupply h
  | present => rfl
  | restoring => rfl

theorem State.supplyReport_of_return {s : State} {f : FeederNo} (h : (s.feeder f).supply = .lost) :
    s.supplyReport f true = if (Setup.feeder s.copy f.val).restoreDelay = 0 then s.supplyRestored f
      else s.putFeeder f
        { s.feeder f with supply := .restoring, restore := some (Setup.feeder s.copy f.val).restoreDelay } := by
  unfold State.supplyReport
  rw [h]

/-- A report of what the feeder's state already says changes nothing. -/
theorem State.supplyReport_of_known {s : State} {f : FeederNo} {b : Bool}
    (h : (b = true ∧ (s.feeder f).supply ≠ .lost) ∨ (b = false ∧ (s.feeder f).supply = .lost)) : s.supplyReport f b = s := by
  unfold State.supplyReport
  obtain ⟨rfl, h⟩ | ⟨rfl, h⟩ := h
  · cases hsupply : (s.feeder f).supply with
    | lost => exact absurd hsupply h
    | present => rfl
    | restoring => rfl
  · rw [h]

/-- Settles O24: the supply report in each supply state. -/
theorem feederWordIsASupplyReport : Obligations.FeederWordIsASupplyReport := by
  intro q a d e f k s hpart hk hactive hflight stations slots becomes lost restored
  have used : sourceInUse s.copy k.val = true := (sourceInUse_feeder hk).trans hactive
  have executed := exec_sourceWrite_of_used hpart hflight used
  rw [State.receive_of_feeder _ hk] at executed
  have report : ∀ {x w more}, (s.wordHanded k).supplyReport f (supplyReported d) =
      { s.wordHanded k with feeders := s.feeders.put f x, writer := w, reports := s.reports ++ more } → becomes x w more :=
    fun h => ⟨_, executed, by rw [h]; exact ⟨Completed.of_finish rfl rfl, rfl⟩⟩
  have present : d.toNat % 256 = 1 → supplyReported d = true := (supplyReported_iff d).mpr
  have absent : d.toNat % 256 ≠ 1 → supplyReported d = false := fun h => by
    rw [← Bool.not_eq_true, supplyReported_iff]; exact h
  have lostIs : feederLostRecord (s.wordHanded k) f = lost := feederLostRecord_eq _ f
  have restoredIs : feederRestoredRecord (s.wordHanded k) f = restored := feederRestoredRecord_eq _ f
  have same : ∀ {b}, (s.wordHanded k).supplyReport f b = s.wordHanded k →
      (s.wordHanded k).supplyReport f b =
        { s.wordHanded k with feeders := s.feeders.put f (s.feeder f), writer := s.wordWriter k, reports := s.reports ++ [] } :=
    fun h => by
      rw [h, s.feeders_put_self, List.append_nil]
      rfl
  refine ⟨fun hd hsupply => report ?_, fun hd hsupply => report ?_, fun hd hsupply hdelay => report ?_,
    fun hd hsupply hdelay => report ?_, fun h => report ?_⟩
  · have supply : ((s.wordHanded k).feeder f).supply = .present := hsupply
    rw [absent hd, State.supplyReport_of_absent (by rw [supply]; nofun), State.supplyLost, lostIs, if_pos supply]
    rfl
  · have supply : ((s.wordHanded k).feeder f).supply = .restoring := hsupply
    rw [absent hd, State.supplyReport_of_absent (by rw [supply]; nofun), State.supplyLost, lostIs,
      if_neg (by rw [supply]; nofun)]
    rfl
  · rw [present hd, State.supplyReport_of_return (s := s.wordHanded k) hsupply, List.append_nil]
    exact if_neg hdelay
  · rw [present hd, State.supplyReport_of_return (s := s.wordHanded k) hsupply, State.supplyRestored, restoredIs]
    exact if_pos hdelay
  · obtain ⟨hd, hsupply⟩ | ⟨hd, hsupply⟩ := h
    · rw [present hd]
      exact same (State.supplyReport_of_known (.inl ⟨rfl, hsupply⟩))
    · rw [absent hd]
      exact same (State.supplyReport_of_known (.inr ⟨rfl, hsupply⟩))

end Sys2Proof.Machine
end

section
/-! PROOF. The words of anemometers and detectors (O25). -/

namespace Sys2Proof.Machine

open Sys2Proof

/-! ### Met (R126) -/

theorem inFlow_eq (flow : Dir) (v : Int) : inFlow flow v = if flow = .fwd then v else -v := by cases flow <;> rfl

/-- An anemometer fails no condition when it is fresh, valid, and in the flow direction at or above the velocity. -/
theorem anemometerReason_eq_none (flow : Dir) (target : Nat) (a : Anemometer) : anemometerReason flow target a = .none ↔
    a.fresh = true ∧ a.valid = true ∧ (target : Int) ≤ if flow = .fwd then a.velocity else -a.velocity := by
  rw [← inFlow_eq]
  unfold anemometerReason
  cases a.fresh <;> cases a.valid <;> simp

theorem metFor_iff (c : Cells Word) (m : AirflowMonitor) (i : Incident) : metFor c m i = true ↔
    ∀ n ∈ Setup.watchList c i.plan, anemometerReason i.flow (Setup.plan c i.plan).velocity (m.entry n) = .none := by
  unfold metFor firstFailing
  rw [Option.isNone_iff_eq_none, List.find?_eq_none]
  simp

/-- The watch list, number by number: as many of the four fields of the header's third word as its length says. -/
theorem Setup.forall_watchList (c : Cells Word) (plan : Nat) (P : Nat → Prop) :
    (∀ n ∈ Setup.watchList c plan, P n) ↔ ∀ j, j < 4 → j < bits (Setup.word c (512 + 4 * (plan - 1) + 1)) 7 0 →
      P (bits (Setup.word c (512 + 4 * (plan - 1) + 2)) (8 * j + 7) (8 * j)) := by
  let field := fun j => bits (Setup.word c (512 + 4 * (plan - 1) + 2)) (8 * j + 7) (8 * j)
  have fields : Setup.watchList c plan =
      ((List.range 4).map field).take (bits (Setup.word c (512 + 4 * (plan - 1) + 1)) 7 0) := rfl
  rw [fields, ← List.map_take, List.take_range, List.forall_mem_map]
  simp only [List.mem_range, lt_min_iff]
  exact ⟨fun h j hj hlen => h j ⟨hlen, hj⟩, fun h j hj => h j hj.2 hj.1⟩

/-! ### The word of an anemometer (R125, R127) -/

theorem State.receive_of_anemometer (s : State) {n : AnemometerNo} {k : SourceNo} (h : k.val = 72 + n.val) (w : Word) :
    s.receive k w = s.anemometerWord n w := by
  have hn := n.isLt
  have number : Fin.ofNat 8 (k.val - 72) = n := Fin.ext (by show (k.val - 72) % 8 = n.val; omega)
  unfold State.receive
  rw [dif_neg (by omega), if_neg (by omega), if_pos (by omega), number]

theorem State.receive_of_detector (s : State) {g : SegmentNo} {k : SourceNo} (h : k.val = 80 + g.val) (w : Word) :
    s.receive k w = s.detectorWord g (conditionOf w) := by
  have hg := g.isLt
  have number : Fin.ofNat 32 (k.val - 80) = g := Fin.ext (by show (k.val - 80) % 32 = g.val; omega)
  unfold State.receive
  rw [dif_neg (by omega), if_neg (by omega), if_neg (by omega), number]

theorem sourceInUse_detector {c : Cells Word} {g : SegmentNo} {k : Nat} (h : k = 80 + g.val) :
    sourceInUse c k = decide (g.val < Setup.segmentCount c) := by
  have number : k - 80 = g.val := by omega
  unfold sourceInUse
  rw [if_neg (by omega), if_neg (by omega), if_neg (by omega), number]

theorem State.anemometerWord_eq (s : State) (n : AnemometerNo) (w : Word) : s.anemometerWord n w = s.putAnemometer n
    { fresh := true, valid := w.getLsbD 16
      velocity := if Setup.anemometerNegative s.copy n.val then -(w.extractLsb' 0 16).toInt
        else (w.extractLsb' 0 16).toInt } := by
  unfold State.anemometerWord anemometerValid
  rw [flag_eq]
  rfl

/-! ### The word of a detector (R142-R146, 12.4) -/

theorem conditionOf_eq (w : Word) :
    conditionOf w = if w.toNat % 256 = 0 then .normal else if w.toNat % 256 = 1 then .alarm else .fault := by
  unfold conditionOf
  rw [bits_low_byte]
  split
  · next h => rw [if_pos h]
  · next h => rw [if_neg (by rw [h]; decide), if_pos h]
  · next h0 h1 => rw [if_neg h0, if_neg h1]

theorem Condition.code_lt (x : Condition) : x.code < 2 ^ 2 := by cases x <;> decide

theorem Covering.code_lt (x : Covering) : x.code < 2 ^ 2 := by cases x <;> decide

theorem detectorAlarmRecord_eq (s : State) (g : SegmentNo) (left : Condition) (i : Option Incident) (entries : Nat) :
    detectorAlarmRecord s g left i.isSome entries =
      { kind := .detectorAlarm, stamp := s.stamp, subject := BitVec.ofNat 32 g.val, detailA := 0
        detailB := BitVec.ofNat 32 (left.code + (if i = none then 0 else 256) + 65536 * (entries % 256)) } := by
  have covered : placed 8 1 (bitOf i.isSome) = if i = none then 0 else 256 := by
    cases i with
    | none => rw [if_pos rfl]; rfl
    | some x => simp [placed, bitOf]
  unfold detectorAlarmRecord mkRecord
  rw [placed_of_lt left.code_lt, covered, placed_eq 16, Nat.pow_zero, Nat.one_mul]
  rfl

theorem detectorClearedRecord_of_entry (s : State) (g : SegmentNo) (left new : Condition) (x : AlarmEntry) :
    detectorClearedRecord s g left new (some x) =
      { kind := .detectorCleared, stamp := s.stamp, subject := BitVec.ofNat 32 g.val, detailA := 0
        detailB := BitVec.ofNat 32 (left.code + 4 * new.code + 16 * x.covering.code
          + 65536 * min 65535 (s.tenths - x.alarmTime)) } := by
  have spent : tenthsSince s.tenths x.alarmTime < 2 ^ 16 := by unfold tenthsSince; omega
  unfold detectorClearedRecord mkRecord
  dsimp only
  rw [placed_of_lt left.code_lt, placed_of_lt new.code_lt, placed_of_lt x.covering.code_lt, placed_of_lt spent,
    Nat.pow_zero, Nat.one_mul, ← Nat.add_assoc]
  rfl

theorem detectorFaultRecord_eq (s : State) (g : SegmentNo) (left : Condition) : detectorFaultRecord s g left =
    { kind := .detectorFault, stamp := s.stamp, subject := BitVec.ofNat 32 g.val, detailA := 0
      detailB := BitVec.ofNat 32 left.code } := by
  unfold detectorFaultRecord mkRecord
  rw [placed_of_lt left.code_lt, Nat.pow_zero, Nat.one_mul]
  rfl

section detector

variable {s : State} {g : SegmentNo}

theorem State.detectorWord_of_same {new : Condition} (h : s.alarms.conditions.nth g = new) : s.detectorWord g new = s :=
  if_pos h

/-- A change to ALARM (R143, R146). -/
theorem State.detectorWord_of_alarm (h : s.alarms.conditions.nth g ≠ .alarm) : s.detectorWord g .alarm =
    { s with
      alarms := alarmRaised (s.alarms.withCondition g .alarm) g s.tenths s.incident.isSome (Setup.t1 s.copy)
      writer := s.writer.hand (detectorAlarmRecord s g (s.alarms.conditions.nth g) s.incident.isSome
        (s.alarms.alarmList.length + 1)) } := by
  have length : (alarmRaised (s.alarms.withCondition g .alarm) g s.tenths s.incident.isSome
      (Setup.t1 s.copy)).alarmList.length = s.alarms.alarmList.length + 1 := by
    unfold alarmRaised
    dsimp only
    split <;> exact List.length_append
  rw [← length]
  unfold State.detectorWord
  dsimp only
  rw [if_neg h]

/-- A change from ALARM (R144). -/
theorem State.detectorWord_of_cleared {new : Condition} (h : s.alarms.conditions.nth g = .alarm) (hnew : new ≠ .alarm) :
    s.detectorWord g new =
      { s with
        alarms := alarmCleared (s.alarms.withCondition g new) g
        writer :=
          let cleared := s.writer.hand (detectorClearedRecord s g .alarm new (s.alarms.entryOf g))
          if new = .fault then cleared.hand (detectorFaultRecord s g .alarm) else cleared } := by
  unfold State.detectorWord
  dsimp only
  rw [h, if_neg (Ne.symm hnew)]
  cases new with
  | alarm => exact absurd rfl hnew
  | normal => rfl
  | fault => rfl

theorem State.detectorWord_of_fault (h : s.alarms.conditions.nth g = .normal) : s.detectorWord g .fault =
    { s with
      alarms := s.alarms.withCondition g .fault, writer := s.writer.hand (detectorFaultRecord s g .normal) } := by
  unfold State.detectorWord
  dsimp only
  rw [h]
  rfl

theorem State.detectorWord_of_normal (h : s.alarms.conditions.nth g = .fault) : s.detectorWord g .normal =
    { s with
      alarms := s.alarms.withCondition g .normal
      writer := s.writer.hand (detectorClearedRecord s g .fault .normal none) } := by
  unfold State.detectorWord
  dsimp only
  rw [h]
  rfl

end detector

theorem alarmRaised_eq (a : AlarmEscalator) (g : SegmentNo) (now : Nat) (i : Option Incident) (t1 : Nat) :
    alarmRaised a g now i.isSome t1 =
      { a with
        alarmList := a.alarmList ++ [{
          segment := g, alarmTime := now, covering := if i = none then .uncovered else .incident }]
        escalation := if i = none ∧ a.escalation = .idle then .waitControl else a.escalation
        stage := if i = none ∧ a.escalation = .idle then some t1 else a.stage } := by
  unfold alarmRaised
  cases i with
  | none =>
    by_cases hidle : a.escalation = .idle <;> simp [hidle]
  | some i => rfl

/-- The escalator returns to IDLE with the last uncovered entry (R150). -/
theorem alarmCleared_of_entry {a : AlarmEscalator} {g : SegmentNo} {x : AlarmEntry} (h : a.entryOf g = some x) :
    let kept := a.alarmList.filter (fun y => y.segment != g)
    let ends := x.covering = .uncovered ∧ a.escalation ≠ .idle ∧ ∀ y ∈ kept, y.covering ≠ .uncovered
    (ends → alarmCleared a g = { a with alarmList := kept, escalation := .idle, stage := none })
      ∧ (¬ends → alarmCleared a g = { a with alarmList := kept }) := by
  intro kept ends
  have last : ({ a with alarmList := kept } : AlarmEscalator).uncoveredCount = 0 ↔ ∀ y ∈ kept, y.covering ≠ .uncovered := by
    rw [AlarmEscalator.uncoveredCount_eq_zero]
    simp [hasUncovered]
  have cleared : alarmCleared a g = if x.covering = .uncovered ∧ a.escalation ≠ .idle then
      ({ a with alarmList := kept } : AlarmEscalator).settle else { a with alarmList := kept } := by
    unfold alarmCleared
    dsimp only
    rw [h]
  rw [cleared]
  refine ⟨fun ⟨hx, hidle, hkept⟩ => ?_, fun hends => ?_⟩
  · rw [if_pos ⟨hx, hidle⟩]
    exact if_pos (last.mpr hkept)
  · split
    · next hcover => exact if_neg fun h => hends ⟨hcover.1, hcover.2, last.mp h⟩
    · rfl

/-- Settles O25: met by the conditions of R126, and the two receivers. -/
theorem anemometerAndDetectorWords : Obligations.AnemometerAndDetectorWords := by
  refine ⟨fun c m i => ?met, fun q a d e n k s hpart hk hcount hflight => ?anemometer,
    fun q a d e g k s hpart hk hcount hflight => ?detector⟩
  case met =>
    rw [metFor_iff, Setup.forall_watchList]
    simp only [anemometerReason_eq_none]
    rfl
  case anemometer =>
    have hn := n.isLt
    have used : sourceInUse s.copy k.val = true := by
      rw [sourceInUse_anemometer s.copy (by omega) (by omega)]
      exact decide_eq_true (by omega)
    have executed := exec_sourceWrite_of_used hpart hflight used
    rw [State.receive_of_anemometer _ hk, State.anemometerWord_eq] at executed
    refine ⟨_, executed, State.putAnemometer_anemometers _ _ _, State.putAnemometer_deadline _ _ _,
      State.putAnemometer_pendingSince _ _ _, fun h => State.putAnemometer_hold_of_none (s := s.wordHanded k) h _ _, fun i h => ?_,
      State.putAnemometer_stations _ _ _, State.putAnemometer_feeders _ _ _, State.putAnemometer_alarms _ _ _⟩
    rw [← holdAfter_eq]
    exact State.putAnemometer_hold_of_some (s := s.wordHanded k) h _ _
  case detector =>
    intro left new before record becomes conditions
    have used : sourceInUse s.copy k.val = true := (sourceInUse_detector hk).trans (decide_eq_true hcount)
    have executed := exec_sourceWrite_of_used hpart hflight used
    have condition : conditionOf d = new := conditionOf_eq d
    rw [State.receive_of_detector _ hk, condition] at executed
    have put : ∀ {c}, new = c → conditions = s.alarms.conditions.put g c := fun h => by
      rw [← h]
    have heard : ∀ {x w}, (s.wordHanded k).detectorWord g new = { s.wordHanded k with alarms := x, writer := w } →
        becomes x w := fun h => ⟨_, executed, by rw [h]; exact ⟨Completed.of_finish rfl rfl, rfl⟩⟩
    refine ⟨fun h => heard (State.detectorWord_of_same (s := s.wordHanded k) h), fun hleft hnew => heard ?_,
      fun x hleft hnew hentry => ?_, fun hleft hnew => heard ?_, fun hleft hnew => heard ?_⟩
    · rw [hnew] at hleft
      rw [put hnew, hnew, State.detectorWord_of_alarm (s := s.wordHanded k) hleft, alarmRaised_eq, detectorAlarmRecord_eq]
      rfl
    · intro kept ends cleared
      have word := State.detectorWord_of_cleared (s := s.wordHanded k) hleft hnew
      have entry : (s.wordHanded k).alarms.entryOf g = some x := hentry
      rw [entry, detectorClearedRecord_of_entry, detectorFaultRecord_eq] at word
      obtain ⟨hends, hkeeps⟩ := alarmCleared_of_entry (a := (s.wordHanded k).alarms.withCondition g new) hentry
      refine ⟨fun h => heard (word.trans ?_), fun h => heard (word.trans ?_)⟩
      · rw [hends h]
        rfl
      · rw [hkeeps h]
        rfl
    · rw [put hnew, hnew, State.detectorWord_of_fault (s := s.wordHanded k) hleft, detectorFaultRecord_eq]
      rfl
    · rw [put hnew, hnew, State.detectorWord_of_normal (s := s.wordHanded k) hleft]
      rfl

end Sys2Proof.Machine
end

section
/-! PROOF. The word of a station: its flags, its drive state (O22, O23). -/

namespace Sys2Proof.Machine

open Sys2Proof

/-! ### The fields of a word (R86) -/

theorem observedOf_stopped (w : Word) : (observedOf w).drive = .stopped ↔ w.toNat / 16 % 4 = 0 := by
  have field : (observedOf w).drive = driveOfCode (w.toNat / 16 % 4) := rfl
  have below : w.toNat / 16 % 4 < 4 := Nat.mod_lt _ (by omega)
  rw [field]
  revert below
  generalize w.toNat / 16 % 4 = code
  intro below
  interval_cases code <;> decide

theorem observedOf_running (w : Word) : (observedOf w).drive = .running ↔ w.toNat / 16 % 4 = 2 := by
  have field : (observedOf w).drive = driveOfCode (w.toNat / 16 % 4) := rfl
  have below : w.toNat / 16 % 4 < 4 := Nat.mod_lt _ (by omega)
  rw [field]
  revert below
  generalize w.toNat / 16 % 4 = code
  intro below
  interval_cases code <;> decide

theorem observedOf_trip (w : Word) : (observedOf w).trip = w.getLsbD 8 := flag_eq w 8

theorem observedOf_localSwitch (w : Word) : (observedOf w).localSwitch = w.getLsbD 9 := flag_eq w 9

theorem observedOf_speed (w : Word) (x : Speed) : (observedOf w).speed = some x ↔ w.toNat % 4 = speedCode x := by
  have field : (observedOf w).speed = speedOfCode (w.toNat % 4) := commandSpeed_eq w
  have below : w.toNat % 4 < 4 := Nat.mod_lt _ (by omega)
  rw [field]
  revert below
  generalize w.toNat % 4 = code
  intro below
  interval_cases code <;> cases x <;> decide

theorem observedOf_dir (w : Word) (x : Dir) : (observedOf w).dir = x ↔ w.toNat / 4 % 2 = dirCode x := by
  have field : (observedOf w).dir = dirOfBit (w.toNat / 4 % 2 == 1) := rfl
  have below : w.toNat / 4 % 2 < 2 := Nat.mod_lt _ (by omega)
  rw [field]
  revert below
  generalize w.toNat / 4 % 2 = code
  intro below
  interval_cases code <;> cases x <;> decide

/-- A word matches the effective command (R11). -/
theorem matchesEffective_iff (w : Word) (e : FanCommand) : matchesEffective (observedOf w) e = true ↔
    w.toNat / 16 % 4 = 2 ∧ e.speed ≠ .off ∧ w.toNat % 4 = speedCode e.speed ∧ w.toNat / 4 % 2 = dirCode e.dir := by
  rw [← observedOf_running, ← observedOf_speed, ← observedOf_dir, ← isStop_eq_false_iff]
  unfold matchesEffective
  simp only [Bool.and_eq_true, Bool.not_eq_true', beq_iff_eq]
  tauto

/-! ### The word is taken (R26) -/

theorem lockRecord_eq (s : State) (n : StationNo) {cause : Nat} (hcause : cause < 2) (added : Bool) (after : LockSet) :
    lockRecord s n cause added after =
      { kind := .lockChanged, stamp := s.stamp, subject := BitVec.ofNat 32 n.val, detailA := 0
        detailB := BitVec.ofNat 32 (cause + (if added then 2 else 0) + (if after.operator then 16 else 0)
          + if after.localSwitch then 32 else 0) } := by
  obtain ⟨operator, localSwitch⟩ := after
  unfold lockRecord mkRecord
  rw [placed_of_lt hcause, Nat.pow_zero, Nat.one_mul]
  cases added <;> cases operator <;> cases localSwitch <;> rfl

theorem availabilityChange_eq (s : State) (n : StationNo) (d d' : Station) : availabilityChange s n d d' =
    if (s.feeder (s.feederNo n)).supply = .present ∧ d.state.out ≠ d'.state.out then
      [{ station := n, available := !d'.state.out }] else [] := by
  unfold availabilityChange
  exact if_congr (by rw [Bool.and_eq_true, s.supplied_iff, bne_iff_ne]) rfl rfl

/-- A station's record once its observed word is replaced (R26 step 1). -/
def State.stationObserved (s : State) (n : StationNo) (o : Observed) : Station := { s.station n with observed := some o }

/-- The state once a station's observed word is replaced. -/
def State.observes (s : State) (n : StationNo) (o : Observed) : State :=
  { s with stations := s.stations.put n (s.stationObserved n o) }

theorem State.observes_eq (s : State) (n : StationNo) (o : Observed) :
    s.putStation n { s.station n with observed := some o } = s.observes n o := s.putStation_of_shown n _ rfl

theorem State.station_observes (s : State) (n : StationNo) (o : Observed) :
    (s.observes n o).station n = s.stationObserved n o := Table.nth_put_self _ _ _

section word

variable {s : State} {n : StationNo} {o : Observed}

theorem State.wordSeen_of_same (h : (s.station n).locks.localSwitch = o.localSwitch) : s.wordSeen n o = s.observes n o := by
  rw [← s.observes_eq]
  exact if_pos h

theorem State.wordSeen_of_change (h : (s.station n).locks.localSwitch ≠ o.localSwitch) : s.wordSeen n o =
    (s.observes n o).changeLocks n 1 o.localSwitch { (s.station n).locks with localSwitch := o.localSwitch } := by
  rw [← s.observes_eq]
  exact if_neg h

/-- A lock change that takes the station in or out ends the word's effect. -/
theorem State.stationWord_of_ends (h : (s.station n).locks.empty
    ≠ LockSet.empty { (s.station n).locks with localSwitch := o.localSwitch }) : s.stationWord n o = s.wordSeen n o := by
  rw [s.stationWord_eq]
  exact if_pos (bne_iff_ne.mpr h)

theorem State.stationWord_of_goes_on (h : (s.station n).locks.empty
    = LockSet.empty { (s.station n).locks with localSwitch := o.localSwitch }) : s.stationWord n o =
      if o.trip then
        if (s.station n).state.out then s.wordSeen n o else (s.wordSeen n o).tripStation n .driveTrip
      else (s.wordSeen n o).judgeDrive n o := by
  rw [s.stationWord_eq]
  exact if_neg (by rw [bne_iff_ne, not_not]; exact h)

theorem LockSet.same_localSwitch {l : LockSet} {b : Bool} (h : l.localSwitch = b) : { l with localSwitch := b } = l := by
  rw [← h]

theorem State.stationWord_of_same (h : (s.station n).locks.localSwitch = o.localSwitch) : s.stationWord n o =
    if o.trip then
      if (s.station n).state.out then s.observes n o else (s.observes n o).tripStation n .driveTrip
    else (s.observes n o).judgeDrive n o := by
  rw [State.stationWord_of_goes_on (by rw [LockSet.same_localSwitch h]), State.wordSeen_of_same h]

/-- The drive state of a station that is out is not judged (R47, R49). -/
theorem State.judgeDrive_of_out (h : (s.station n).state.out = true) : s.judgeDrive n o = s := by
  obtain h | h := (LifeState.out_iff _).mp h <;> (unfold State.judgeDrive; dsimp only; rw [h])

end word

/-! ### What the flags do (R26-R28, R46, R48, R49) -/

/-- What a station's word leaves: its record, its feeder's, the image writer, the reports. -/
def State.wordLeaves (s : State) (n : StationNo) (d : Station) (f : Feeder) (w : ImageWriter)
    (reports : List AvailabilityReport) : State :=
  { s with
    stations := s.stations.put n d, feeders := s.feeders.put (s.feederNo n) f, writer := w
    reports := s.reports ++ reports }

section leaves

variable {s : State} {n : StationNo} {o : Observed}

theorem State.observes_leaves (s : State) (n : StationNo) (o : Observed) :
    s.observes n o = s.wordLeaves n (s.stationObserved n o) (s.feeder (s.feederNo n)) s.writer [] := by
  unfold State.wordLeaves
  rw [s.feeders_put_self, List.append_nil]
  rfl

/-- A transition of the station observed, to a state other than QUEUED. -/
theorem State.move_observes {d : Station} {reports : List AvailabilityReport} (h : d.state ≠ (s.station n).state)
    (hqueued : d.state ≠ .queued) (hreports : availabilityChange s n (s.station n) d = reports)
    (l : List ReportRecord) : (s.observes n o).moveStation n d l =
      s.wordLeaves n { d with entered := true, writeBackPending := true } (s.feederLeft n)
        ((s.writer.placeOnce (.station n)).handAll l) reports := by
  have moved := s.moveStation_put (n := n) (d := s.stationObserved n o) h l
  rw [feederAfterMove_of_left s n (d := s.stationObserved n o) rfl hqueued] at moved
  rw [← hreports]
  exact moved

/-- Going out is reported while the feeder is PRESENT, but from TRIPPED and LOCKED. -/
theorem availabilityChange_to_out {d : Station} (h : d.state.out = true) : availabilityChange s n (s.station n) d =
    if (s.feeder (s.feederNo n)).supply = .present ∧ (s.station n).state.out = false then
      [{ station := n, available := false }] else [] := by
  rw [availabilityChange_eq, h]
  exact if_congr (and_congr_right fun _ => Iff.of_eq (Bool.not_eq_true _)) rfl rfl

/-- Coming back is reported while the feeder is PRESENT. -/
theorem availabilityChange_to_service {d : Station} (h : d.state.out = false) : availabilityChange s n (s.station n) d =
    if (s.feeder (s.feederNo n)).supply = .present ∧ (s.station n).state.out = true then
      [{ station := n, available := true }] else [] := by
  rw [availabilityChange_eq, h]
  exact if_congr (and_congr_right fun _ => Iff.of_eq (Bool.not_eq_false _)) rfl rfl

theorem State.changeLocks_of_first {k : Nat} {b : Bool} {l : LockSet} (hempty : (s.station n).locks.empty = true)
    (h : l.empty = false) : s.changeLocks n k b l =
      s.moveStation n { (s.station n).toLocked with locks := l } [lockRecord s n k b l] := by
  unfold State.changeLocks
  dsimp only
  rw [hempty, h]
  rfl

theorem State.changeLocks_of_last {k : Nat} {b : Bool} {l : LockSet} (hheld : (s.station n).locks.empty = false)
    (h : l.empty = true) : s.changeLocks n k b l =
      s.moveStation n { (s.station n).unlocked (s.static n).dwell with locks := l } [lockRecord s n k b l] := by
  unfold State.changeLocks
  dsimp only
  rw [hheld, h]
  rfl

/-- The first cause, LOCAL, takes the station to LOCKED. -/
theorem State.stationWord_of_first (hlocks : (s.station n).locks = { operator := false, localSwitch := false })
    (hlocal : o.localSwitch = true) (hstate : (s.station n).state ≠ .locked) : s.stationWord n o =
      s.wordLeaves n
        { s.stationObserved n o with
          effective := { (s.station n).effective with speed := .off }, entered := true, writeBackPending := true
          state := .locked, timer := none, tripCause := none, locks := { operator := false, localSwitch := true } }
        (s.feederLeft n)
        ((s.writer.placeOnce (.station n)).hand
          (lockRecord s n 1 true { operator := false, localSwitch := true }))
        (if (s.feeder (s.feederNo n)).supply = .present ∧ (s.station n).state ≠ .tripped then
          [{ station := n, available := false }] else []) := by
  have held : ((s.observes n o).station n).locks = { operator := false, localSwitch := false } := by
    rw [State.station_observes]
    exact hlocks
  have out : (s.station n).state.out = false ↔ (s.station n).state ≠ .tripped := by
    rw [← Bool.not_eq_true]
    exact not_congr ((LifeState.out_iff _).trans (or_iff_left hstate))
  have reported : ∀ {d : Station}, d.state = .locked → availabilityChange s n (s.station n) d =
      if (s.feeder (s.feederNo n)).supply = .present ∧ (s.station n).state ≠ .tripped then
        [{ station := n, available := false }] else [] := fun h => by
    rw [availabilityChange_to_out (by rw [h]; rfl)]
    exact if_congr (and_congr_right fun _ => out) rfl rfl
  rw [State.stationWord_of_ends (by rw [hlocks, hlocal]; nofun),
    State.wordSeen_of_change (by rw [hlocks, hlocal]; nofun), hlocks, hlocal,
    State.changeLocks_of_first (by rw [held]; rfl) rfl, State.station_observes,
    State.move_observes (Ne.symm hstate) (by nofun) (reported rfl)]
  rfl

/-- The last cause, LOCAL, gone takes the station out of LOCKED. -/
theorem State.stationWord_of_last (hlocks : (s.station n).locks = { operator := false, localSwitch := true })
    (hlocal : o.localSwitch = false) (hstate : (s.station n).state = .locked) : s.stationWord n o =
      s.wordLeaves n
        (if o.drive = .stopped then
          { s.stationObserved n o with
            effective := { (s.station n).effective with speed := .off }, entered := true, writeBackPending := true
            state := .dwell, timer := some (s.static n).dwell, locks := { operator := false, localSwitch := false } }
        else
          { s.stationObserved n o with
            effective := { (s.station n).effective with speed := .off }, entered := true, writeBackPending := true
            state := .stopping, timer := none, stopFlag := false, locks := { operator := false, localSwitch := false } })
        (s.feeder (s.feederNo n))
        ((s.writer.placeOnce (.station n)).hand (lockRecord s n 1 false { operator := false, localSwitch := false }))
        (if (s.feeder (s.feederNo n)).supply = .present then [{ station := n, available := true }] else []) := by
  have held : ((s.observes n o).station n).locks = { operator := false, localSwitch := true } := by
    rw [State.station_observes]
    exact hlocks
  have idle : s.feederLeft n = s.feeder (s.feederNo n) :=
    State.feederLeft_of_idle (by rw [hstate]; nofun) (by rw [hstate]; nofun)
  have unlocked : (s.stationObserved n o).unlocked (s.static n).dwell =
      if o.drive = .stopped then (s.stationObserved n o).toDwell (s.static n).dwell
      else (s.stationObserved n o).toStopping := rfl
  have moves : ∀ d : Station, d.state = .dwell ∨ d.state = .stopping →
      (s.observes n o).moveStation n d [lockRecord s n 1 false { operator := false, localSwitch := false }] =
        s.wordLeaves n { d with entered := true, writeBackPending := true } (s.feeder (s.feederNo n))
          ((s.writer.placeOnce (.station n)).hand (lockRecord s n 1 false { operator := false, localSwitch := false }))
          (if (s.feeder (s.feederNo n)).supply = .present then [{ station := n, available := true }] else []) :=
    fun d hd => by
      have back : d.state.out = false := by obtain h | h := hd <;> rw [h] <;> rfl
      have reported : availabilityChange s n (s.station n) d =
          if (s.feeder (s.feederNo n)).supply = .present then [{ station := n, available := true }] else [] := by
        rw [availabilityChange_to_service back, hstate]
        exact if_congr (and_iff_left rfl) rfl rfl
      rw [State.move_observes (by rw [hstate]; obtain h | h := hd <;> rw [h] <;> nofun)
        (by obtain h | h := hd <;> rw [h] <;> nofun) reported, idle]
      rfl
  rw [State.stationWord_of_ends (by rw [hlocks, hlocal]; nofun),
    State.wordSeen_of_change (by rw [hlocks, hlocal]; nofun), hlocks, hlocal,
    State.changeLocks_of_last (by rw [held]; rfl) rfl, State.station_observes]
  show (s.observes n o).moveStation n { (s.stationObserved n o).unlocked (s.static n).dwell with locks := _ }
    [lockRecord s n 1 false { operator := false, localSwitch := false }] = _
  rw [unlocked]
  split
  · exact moves _ (.inl rfl)
  · exact moves _ (.inr rfl)

/-- With OPERATOR held a change of LOCAL leaves the station in LOCKED. -/
theorem State.stationWord_of_beside (hop : (s.station n).locks.operator = true)
    (hlocal : (s.station n).locks.localSwitch ≠ o.localSwitch) (hstate : (s.station n).state = .locked) :
    s.stationWord n o =
      s.wordLeaves n { s.stationObserved n o with locks := { operator := true, localSwitch := o.localSwitch } }
        (s.feeder (s.feederNo n))
        (s.writer.hand (lockRecord s n 1 o.localSwitch { operator := true, localSwitch := o.localSwitch })) [] := by
  have locks : ({ (s.station n).locks with localSwitch := o.localSwitch } : LockSet) =
      { operator := true, localSwitch := o.localSwitch } := by rw [← hop]
  have heldBefore : (s.station n).locks.empty = false := by unfold LockSet.empty; rw [hop]; rfl
  have seen : s.wordSeen n o = s.wordLeaves n
      { s.stationObserved n o with locks := { operator := true, localSwitch := o.localSwitch } } (s.feeder (s.feederNo n))
      (s.writer.hand (lockRecord s n 1 o.localSwitch { operator := true, localSwitch := o.localSwitch })) [] := by
    rw [State.wordSeen_of_change hlocal, locks,
      State.changeLocks_of_same 1 o.localSwitch (by rw [State.station_observes]; exact heldBefore),
      State.station_observes]
    have put : (s.observes n o).putStation n
        { s.stationObserved n o with locks := { operator := true, localSwitch := o.localSwitch } } = _ :=
      (s.observes n o).putStation_of_shown n _ (by rw [State.station_observes]; rfl)
    rw [put, State.observes, Table.put_put, State.wordLeaves, s.feeders_put_self, List.append_nil]
    rfl
  have out : ((s.wordSeen n o).station n).state.out = true := by
    rw [State.state_wordSeen (by rw [locks, heldBefore]; rfl), hstate]
    rfl
  rw [State.stationWord_of_goes_on (by rw [locks, heldBefore]; rfl), State.judgeDrive_of_out out,
    if_pos (show (s.station n).state.out = true by rw [hstate]; rfl), ite_self, seen]

/-- A word with the local flag agreeing is only recorded in TRIPPED and LOCKED. -/
theorem State.stationWord_of_out (h : (s.station n).locks.localSwitch = o.localSwitch)
    (hstate : (s.station n).state.out = true) : s.stationWord n o = s.observes n o := by
  rw [State.stationWord_of_same h, if_pos hstate,
    State.judgeDrive_of_out (by rw [State.station_observes]; exact hstate), ite_self]

/-- The station observed trips. -/
theorem State.trip_observes (cause : TripCause) (hstate : (s.station n).state.out = false) :
    (s.observes n o).tripStation n cause =
      s.wordLeaves n
        { s.stationObserved n o with
          effective := { (s.station n).effective with speed := .off }, entered := true, writeBackPending := true
          state := .tripped, timer := none, tripCause := some cause }
        (s.feederLeft n)
        ((s.writer.placeOnce (.station n)).hand (trippedRecord s n cause (s.station n).state))
        (if (s.feeder (s.feederNo n)).supply = .present then [{ station := n, available := false }] else []) := by
  have reported : ∀ {d : Station}, d.state = .tripped → availabilityChange s n (s.station n) d =
      if (s.feeder (s.feederNo n)).supply = .present then [{ station := n, available := false }] else [] := fun h => by
    rw [availabilityChange_to_out (by rw [h]; rfl)]
    exact if_congr (and_iff_left hstate) rfl rfl
  rw [State.tripStation, State.station_observes, State.move_observes (d := (s.stationObserved n o).toTripped cause)
    (fun heq => by rw [← heq] at hstate; cases hstate) (by nofun) (reported rfl)]
  rfl

theorem State.stationWord_of_trip (h : (s.station n).locks.localSwitch = o.localSwitch) (htrip : o.trip = true)
    (hstate : (s.station n).state.out = false) :
    s.stationWord n o = (s.observes n o).tripStation n .driveTrip := by
  rw [State.stationWord_of_same h, if_pos htrip, if_neg (by rw [hstate]; nofun)]

/-- A word that shows neither flag is judged by its drive state. -/
theorem State.stationWord_of_judged (h : (s.station n).locks.localSwitch = o.localSwitch) (htrip : o.trip = false) :
    s.stationWord n o = (s.observes n o).judgeDrive n o := by
  rw [State.stationWord_of_same h, if_neg (by rw [htrip]; nofun)]

end leaves

theorem sourceInUse_station (s : State) (n : StationNo) : sourceInUse s.copy (stationSource n).val = s.present n :=
  if_pos n.isLt

theorem State.receive_of_station (s : State) (n : StationNo) (w : Word) :
    s.receive (stationSource n) w = s.stationWord n (observedOf w) := dif_pos n.isLt

/-- What the word of a present station leaves, for the state it is handed to. -/
theorem wordTaken_of_leaves {q : Requester} {a : Nat} {w : Word} {e : BitVec 4} {n : StationNo} {s : State}
    (hpart : s.part = .guard)
    (hflight : s.inFlight = some { requester := q, transfer := .write a w e, owner := .port (.source (stationSource n)) })
    (hpresent : s.present n = true) {d : Station} {f : Feeder} {x : ImageWriter} {reports : List AvailabilityReport}
    (h : (s.wordHanded (stationSource n)).stationWord n (observedOf w) =
      (s.wordHanded (stationSource n)).wordLeaves n d f x reports) :
    Completes .sourceWrite s (fun t => WordTaken s t n d f x reports) := by
  have executed := exec_sourceWrite_of_used hpart hflight ((sourceInUse_station s n).trans hpresent)
  rw [State.receive_of_station, h] at executed
  exact ⟨_, executed, Completed.of_finish rfl rfl, rfl⟩

/-- Settles O22: the two flags, by the lock causes the station holds. -/
theorem stationWordTripsOrLocks : Obligations.StationWordTripsOrLocks := by
  intro q a w e n s hpart hflight hpresent d f before supplied stop moved lockChanged
  have taken := @wordTaken_of_leaves q a w e n s hpart hflight hpresent
  let u := s.wordHanded (stationSource n)
  have trip := observedOf_trip w
  have localSwitch := observedOf_localSwitch w
  refine ⟨fun hlocks hlocal hstate => taken ?_, fun hlocks hlocal hstate => taken ?_,
    fun hop hlocal hstate => taken ?_, fun hsame => ⟨fun hout => taken ?_, fun htripped hlocked hflag => taken ?_⟩⟩
  · rw [State.stationWord_of_first (s := u) hlocks (localSwitch.trans hlocal) hstate, lockRecord_eq _ _ (by decide)]
    rfl
  · rw [State.stationWord_of_last (s := u) hlocks (localSwitch.trans hlocal) hstate, lockRecord_eq _ _ (by decide),
      if_congr (observedOf_stopped w) rfl rfl]
    rfl
  · rw [← localSwitch] at hlocal
    rw [State.stationWord_of_beside (s := u) hop hlocal hstate, lockRecord_eq _ _ (by decide), localSwitch]
    cases w.getLsbD 9 <;> rfl
  · rw [State.stationWord_of_out (s := u) (hsame.trans localSwitch.symm) ((LifeState.out_iff _).mpr hout),
      State.observes_leaves]
    rfl
  · have inService : (s.station n).state.out = false := by
      rw [← Bool.not_eq_true, LifeState.out_iff]
      exact fun h => h.elim htripped hlocked
    rw [State.stationWord_of_trip (s := u) (hsame.trans localSwitch.symm) (trip.trans hflag) inService,
      State.trip_observes (s := u) _ inService, trippedRecord_eq]
    rfl

end Sys2Proof.Machine
end

section
/-! PROOF. The drive state of a station's word is judged (O23). -/

namespace Sys2Proof.Machine

open Sys2Proof

variable {s : State} {n : StationNo} {o : Observed}

/-! ### The rules by the state (R26 step 4) -/

theorem State.judgeDrive_of_resting (h : (s.station n).state = .off ∨ (s.station n).state = .dwell) :
    s.judgeDrive n o = s := by
  unfold State.judgeDrive
  dsimp only
  obtain h | h := h <;> rw [h]

theorem State.judgeDrive_of_queued (h : (s.station n).state = .queued) : s.judgeDrive n o =
    if o.drive = .stopped ∧ s.entryKind n = .raise then s.unexpectedStop n else s := by
  unfold State.judgeDrive
  dsimp only
  rw [h]

theorem State.judgeDrive_of_starting (h : (s.station n).state = .starting) : s.judgeDrive n o =
    if o.drive = .stopped ∧ s.supplied n = false then s.dwellStation n []
    else if (s.station n).confirmed && matchesEffective o (s.station n).effective then s.startEnds n
    else s := by
  unfold State.judgeDrive
  dsimp only
  rw [h]

theorem State.judgeDrive_of_running (h : (s.station n).state = .running) : s.judgeDrive n o =
    if o.drive = .stopped then s.unexpectedStop n else s := by
  unfold State.judgeDrive
  dsimp only
  rw [h]

theorem State.judgeDrive_of_stopping (h : (s.station n).state = .stopping) : s.judgeDrive n o =
    if o.drive = .stopped ∧ (s.station n).confirmed = true then s.dwellStation n [] else s := by
  unfold State.judgeDrive
  dsimp only
  rw [h]

theorem Station.confirmed_iff (d : Station) : d.confirmed = true ↔ d.timer ≠ none := Option.isSome_iff_ne_none

/-! ### What the rules leave -/

/-- The station observed goes to DWELL from a state in service. -/
theorem State.dwell_observes (hservice : (s.station n).state.out = false) (hstate : (s.station n).state ≠ .dwell) :
    (s.observes n o).dwellStation n [] =
      s.wordLeaves n
        { s.stationObserved n o with
          entered := true, writeBackPending := true, state := .dwell
          effective := { (s.station n).effective with speed := .off }, timer := some (s.static n).dwell }
        (s.feederLeft n) (s.writer.placeOnce (.station n)) [] := by
  rw [State.dwellStation, State.station_observes, State.move_observes
    (d := (s.stationObserved n o).toDwell ((s.observes n o).static n).dwell) (Ne.symm hstate) (by nofun)
    (availabilityChange_of_same s n hservice)]
  rfl

/-- STOPPED while the station should run (R34, R41). -/
theorem State.unexpectedStop_of_supplied (h : s.supplied n = true) :
    s.unexpectedStop n = s.tripStation n .unexpectedStop := if_pos h

theorem State.unexpectedStop_of_unsupplied (h : s.supplied n = false) : s.unexpectedStop n = s.dwellStation n [] :=
  if_neg (by rw [h]; nofun)

theorem ImageWriter.placeOnce_placeOnce (w : ImageWriter) (e : WorkEntry) : (w.placeOnce e).placeOnce e = w.placeOnce e := by
  have waits : (w.placeOnce e).workList.contains e = true := by
    unfold ImageWriter.placeOnce
    dsimp only
    split
    · next h => exact h
    · simp
  have again : (w.placeOnce e).placeOnce e = { w.placeOnce e with
      workList := if (w.placeOnce e).workList.contains e then (w.placeOnce e).workList
        else (w.placeOnce e).workList ++ [e] } := rfl
  rw [again, if_pos waits]

section leaves

variable {x : Station} {y : Feeder} {w : ImageWriter} {r : List AvailabilityReport}

theorem State.station_wordLeaves (s : State) (n : StationNo) (x : Station) (y : Feeder) (w : ImageWriter)
    (r : List AvailabilityReport) : (s.wordLeaves n x y w r).station n = x := Table.nth_put_self _ _ _

theorem State.feeder_wordLeaves (s : State) (n : StationNo) (x : Station) (y : Feeder) (w : ImageWriter)
    (r : List AvailabilityReport) : (s.wordLeaves n x y w r).feeder (s.feederNo n) = y := Table.nth_put_self _ _ _

/-- Of two words' outcomes at one station the second stands, and the reports of both. -/
theorem State.wordLeaves_wordLeaves (s : State) (n : StationNo) (x x' : Station) (y y' : Feeder) (w w' : ImageWriter)
    (r r' : List AvailabilityReport) :
    (s.wordLeaves n x y w r).wordLeaves n x' y' w' r' = s.wordLeaves n x' y' w' (r ++ r') := by
  show ({ s with
    stations := (s.stations.put n x).put n x'
    feeders := (s.feeders.put (s.feederNo n) y).put (s.feederNo n) y'
    writer := w'
    reports := s.reports ++ r ++ r' } : State) = _
  rw [Table.put_put, Table.put_put, List.append_assoc]
  rfl

/-- A station that has just moved moves on, within service. -/
theorem State.move_wordLeaves {d : Station} (h : d.state ≠ x.state) (hservice : x.state.out = d.state.out) :
    (s.wordLeaves n x y w r).moveStation n d [] =
      s.wordLeaves n { d with entered := true, writeBackPending := true }
        (feederAfterMove (s.wordLeaves n x y w r) n x d) (w.placeOnce (.station n)) r := by
  have moved := State.moveStation_eq (s := s.wordLeaves n x y w r) (n := n) (d := d)
    (by rwa [State.station_wordLeaves]) []
  rw [State.station_wordLeaves, availabilityChange_of_same _ n hservice] at moved
  have again := s.wordLeaves_wordLeaves n x { d with entered := true, writeBackPending := true } y
    (feederAfterMove (s.wordLeaves n x y w r) n x d) w (w.placeOnce (.station n)) r []
  rw [List.append_nil] at again
  rw [← again]
  exact moved

/-- A station that has just moved takes a new effective command. -/
theorem State.put_wordLeaves {c : FanCommand} (h : x.effective ≠ c) :
    (s.wordLeaves n x y w r).putStation n { x with effective := c } =
      s.wordLeaves n { x with effective := c, writeBackPending := true } y (w.placeOnce (.station n)) r := by
  have shown : ((s.wordLeaves n x y w r).station n).shown ≠ ({ x with effective := c } : Station).shown := by
    rw [State.station_wordLeaves]
    exact fun heq => h (congrArg Prod.fst heq)
  rw [State.putStation_of_change _ _ _ shown]
  show ({ s with
    stations := (s.stations.put n x).put n _, feeders := _, writer := _, reports := _ } : State) = _
  rw [Table.put_put]
  rfl

/-- A running station that has just moved stops, by the RUNNING rule (R40). -/
theorem State.stop_wordLeaves (hx : x.state = .running) :
    (s.wordLeaves n x y w r).moveStation n x.toStopping [] =
      s.wordLeaves n
        { x with
          state := .stopping, effective := { x.effective with speed := .off }, timer := none, stopFlag := false
          entered := true, writeBackPending := true } y (w.placeOnce (.station n)) r := by
  have left : feederAfterMove (s.wordLeaves n x y w r) n x x.toStopping = y := by
    unfold feederAfterMove
    dsimp only
    rw [hx, if_neg (by nofun), if_neg (by nofun), if_neg (by nofun)]
    exact s.feeder_wordLeaves n x y w r
  rw [State.move_wordLeaves (by rw [hx]; nofun) (by rw [hx]; rfl), left]
  rfl

/-- A running station that has just moved asks for a higher speed (R40). -/
theorem State.raise_wordLeaves (hx : x.state = .running) (he : x.effective.speed ≠ .off) :
    (s.wordLeaves n x y w r).moveStation n x.toQueued [] =
      s.wordLeaves n { x with state := .queued, timer := none, entered := true, writeBackPending := true }
        { y with
          queue := queueInsert
            { station := n, kind := .raise, target := x.requested, cls := x.entryClass, entryTime := s.tenths } y.queue }
        (w.placeOnce (.station n)) r := by
  have entry : queueEntryFor (s.wordLeaves n x y w r) n x.toQueued =
      { station := n, kind := .raise, target := x.requested, cls := x.entryClass, entryTime := s.tenths } := by
    have raises : isStop x.toQueued.effective = false := (isStop_eq_false_iff _).mpr he
    unfold queueEntryFor
    rw [raises]
    rfl
  have joins : feederAfterMove (s.wordLeaves n x y w r) n x x.toQueued =
      { y with
        queue := queueInsert
          { station := n, kind := .raise, target := x.requested, cls := x.entryClass, entryTime := s.tenths } y.queue } := by
    have feeder : (s.wordLeaves n x y w r).feeder ((s.wordLeaves n x y w r).feederNo n) = y :=
      s.feeder_wordLeaves n x y w r
    unfold feederAfterMove
    dsimp only
    rw [entry, feeder, hx, if_neg (by nofun), if_pos (show x.toQueued.state = .queued from rfl), if_neg (by nofun)]
  rw [State.move_wordLeaves (by rw [hx]; nofun) (by rw [hx]; rfl), joins]
  rfl

end leaves

/-! ### A confirmed start ends (R36) -/

/-- The state in which a matching word has taken the station to RUNNING. -/
def State.startedState (s : State) (n : StationNo) (o : Observed) : State :=
  s.wordLeaves n
    { s.stationObserved n o with entered := true, writeBackPending := true, state := .running, timer := none }
    (s.feederLeft n) (s.writer.placeOnce (.station n)) []

theorem State.startEnds_observes (h : (s.station n).state = .starting) : (s.observes n o).startEnds n =
    if sameCommand (s.station n).requested (s.station n).effective then s.startedState n o
    else (s.startedState n o).runningChange n := by
  have moved : (s.observes n o).moveStation n { s.stationObserved n o with state := .running, timer := none } [] =
      s.startedState n o := by
    rw [State.move_observes (by rw [h]; nofun) (by nofun) (availabilityChange_of_same s n (by rw [h]; rfl))]
    rfl
  unfold State.startEnds
  dsimp only
  rw [State.station_observes, moved]
  rfl

theorem State.startedState_station (s : State) (n : StationNo) (o : Observed) : (s.startedState n o).station n =
    { s.stationObserved n o with entered := true, writeBackPending := true, state := .running, timer := none } :=
  State.station_wordLeaves ..

section started

variable (h : (s.station n).state = .starting) (he : (s.station n).effective.speed ≠ .off)
include h he

/-- With a command that differs from the effective one the start ends by the RUNNING rule. -/
theorem State.startEnds_of_differs (hne : (s.station n).requested ≠ (s.station n).effective) :
    (s.observes n o).startEnds n = (s.startedState n o).runningChange n := by
  have differs : ¬sameCommand (s.station n).requested (s.station n).effective = true := by
    unfold sameCommand
    rw [(isStop_eq_false_iff _).mpr he, Bool.and_false, Bool.false_or, beq_iff_eq]
    exact hne
  rw [State.startEnds_observes h, if_neg differs]

omit he in
theorem State.startEnds_of_same (hc : (s.station n).requested = (s.station n).effective) :
    (s.observes n o).startEnds n = s.startedState n o := by
  have same : sameCommand (s.station n).requested (s.station n).effective = true := by
    unfold sameCommand
    rw [hc, beq_self_eq_true, Bool.or_true]
  rw [State.startEnds_observes h, if_pos same]

theorem State.startEnds_of_end
    (hc : (s.station n).requested.speed = .off ∨ (s.station n).requested.dir ≠ (s.station n).effective.dir) :
    (s.observes n o).startEnds n = s.wordLeaves n
      { s.stationObserved n o with
        entered := true, writeBackPending := true, state := .stopping
        effective := { (s.station n).effective with speed := .off }, stopFlag := false, timer := none }
      (s.feederLeft n) (s.writer.placeOnce (.station n)) [] := by
  have differs : (s.station n).requested ≠ (s.station n).effective := fun heq =>
    hc.elim (fun hoff => he (heq ▸ hoff)) fun hdir => hdir (congrArg FanCommand.dir heq)
  rw [State.startEnds_of_differs h he differs, State.runningChange_of_end (by rw [State.startedState_station]; exact he)
    (by rw [State.startedState_station]; exact hc), State.startedState_station]
  unfold State.startedState
  rw [State.stop_wordLeaves rfl, ImageWriter.placeOnce_placeOnce]
  rfl

variable (hdir : (s.station n).requested.dir = (s.station n).effective.dir)
include hdir

theorem State.startEnds_of_lower (hrun : (s.station n).requested.speed ≠ .off)
    (hlower : speedCode (s.station n).requested.speed < speedCode (s.station n).effective.speed) :
    (s.observes n o).startEnds n = s.wordLeaves n
      { s.stationObserved n o with
        entered := true, writeBackPending := true, state := .running, effective := (s.station n).requested, timer := none }
      (s.feederLeft n) (s.writer.placeOnce (.station n)) [] := by
  have differs : (s.station n).requested ≠ (s.station n).effective := fun heq => by
    rw [heq] at hlower
    exact Nat.lt_irrefl _ hlower
  have station := s.startedState_station n o
  rw [State.startEnds_of_differs h he differs, State.runningChange_of_lower (by rw [station]; exact he)
    (by rw [station]; exact hrun) (by rw [station]; exact hdir) (by rw [station]; exact hlower), station]
  unfold State.startedState
  refine (State.put_wordLeaves (s := s) (n := n) (c := (s.station n).requested)
    (x := { s.stationObserved n o with entered := true, writeBackPending := true, state := .running, timer := none })
    (Ne.symm differs)).trans ?_
  rw [ImageWriter.placeOnce_placeOnce]

theorem State.startEnds_of_higher
    (hhigher : speedCode (s.station n).effective.speed < speedCode (s.station n).requested.speed) :
    (s.observes n o).startEnds n = s.wordLeaves n
      { s.stationObserved n o with entered := true, writeBackPending := true, state := .queued, timer := none }
      { s.feederLeft n with
        queue := queueInsert
          { station := n, kind := .raise, target := (s.station n).requested, cls := (s.station n).entryClass,
            entryTime := s.tenths } (s.feeder (s.feederNo n)).queue }
      (s.writer.placeOnce (.station n)) [] := by
  have differs : (s.station n).requested ≠ (s.station n).effective := fun heq => by
    rw [heq] at hhigher
    exact Nat.lt_irrefl _ hhigher
  have station := s.startedState_station n o
  rw [State.startEnds_of_differs h he differs, State.runningChange_of_higher (by rw [station]; exact he)
    (by rw [station]; exact speed_ne_off_of_above hhigher) (by rw [station]; exact hdir)
    (by rw [station]; exact hhigher), station]
  unfold State.startedState
  refine (State.raise_wordLeaves (s := s) (n := n)
    (x := { s.stationObserved n o with entered := true, writeBackPending := true, state := .running, timer := none })
    rfl he).trans ?_
  rw [ImageWriter.placeOnce_placeOnce, State.feederLeft_of_starting h]
  rfl

end started

/-- Settles O23, state by state. -/
theorem stationWordIsJudged : Obligations.StationWordIsJudged := by
  intro q a w b n s hpart hflight hpresent hlocal hnotrip d e c f supplied isStopped matched before shown moved recorded
    dwells trips starts
  let u := s.wordHanded (stationSource n)
  let o := observedOf w
  have stopped : o.drive = .stopped ↔ isStopped := observedOf_stopped w
  have feederPresent : u.supplied n = true ↔ supplied := u.supplied_iff n
  have notSupplied : ¬supplied → u.supplied n = false := fun h => by rw [← Bool.not_eq_true, feederPresent]; exact h
  have judged : u.stationWord n o = (u.observes n o).judgeDrive n o := State.stationWord_of_judged (s := u)
    (hlocal.trans (observedOf_localSwitch w).symm) ((observedOf_trip w).trans hnotrip)
  have taken : ∀ {x y v r}, (u.observes n o).judgeDrive n o = u.wordLeaves n x y v r →
      Completes .sourceWrite s (fun t => WordTaken s t n x y v r) :=
    fun h => wordTaken_of_leaves hpart hflight hpresent (judged.trans h)
  have isRecorded : (u.observes n o).judgeDrive n o = u.observes n o → recorded :=
    fun h => taken (h.trans (u.observes_leaves n o))
  have inState : ∀ {l}, (s.station n).state = l → ((u.observes n o).station n).state = l := fun h => by
    rw [State.station_observes]
    exact h
  have dwelling : ∀ {l}, (s.station n).state = l → l.out = false → l ≠ .dwell →
      (u.observes n o).judgeDrive n o = (u.observes n o).dwellStation n [] → dwells := fun hl hout hne h =>
    taken (h.trans (State.dwell_observes (s := u) (by rw [← hl] at hout; exact hout) (by rw [← hl] at hne; exact hne)))
  have tripping : ∀ {l}, (s.station n).state = l → l.out = false → supplied →
      (u.observes n o).judgeDrive n o = (u.observes n o).tripStation n .unexpectedStop → trips := fun hl hout hs h => by
    have tripped := State.trip_observes (s := u) (n := n) (o := o) .unexpectedStop (by rw [← hl] at hout; exact hout)
    rw [trippedRecord_eq, if_pos (show (u.feeder (u.feederNo n)).supply = .present from hs)] at tripped
    exact taken (h.trans tripped)
  refine ⟨fun hstate => isRecorded ?resting, fun hstate x hfind => ?queued, fun hstate => ?starting, fun hstate => ?running,
    fun hstate => ?stopping⟩
  case resting =>
    exact State.judgeDrive_of_resting (hstate.imp inState inState)
  case queued =>
    have entry : (u.observes n o).entryKind n = x.kind := State.entryKind_of (s := u.observes n o) hfind
    have rule := State.judgeDrive_of_queued (o := o) (inState hstate)
    rw [entry] at rule
    refine ⟨fun hk => isRecorded ?_, fun hk hgoes => isRecorded ?_, fun hk hstop hs => tripping hstate rfl hs ?_,
      fun hk hstop hs => dwelling hstate rfl nofun ?_⟩
    · rw [rule, if_neg fun h => by rw [hk] at h; cases h.2]
    · rw [rule, if_neg fun h => hgoes (stopped.mp h.1)]
    · rw [rule, if_pos ⟨stopped.mpr hstop, hk⟩]
      exact State.unexpectedStop_of_supplied (s := u.observes n o) (feederPresent.mpr hs)
    · rw [rule, if_pos ⟨stopped.mpr hstop, hk⟩]
      exact State.unexpectedStop_of_unsupplied (s := u.observes n o) (notSupplied hs)
  case starting =>
    have rule := State.judgeDrive_of_starting (o := o) (inState hstate)
    have unsupplied : o.drive = .stopped ∧ (u.observes n o).supplied n = false ↔ isStopped ∧ ¬supplied :=
      and_congr stopped ((Bool.not_eq_true _).symm.to_iff.trans (not_congr feederPresent))
    have ends : (((u.observes n o).station n).confirmed && matchesEffective o ((u.observes n o).station n).effective) = true
        ↔ (s.station n).timer ≠ none ∧ matched := by
      rw [State.station_observes, Bool.and_eq_true, Station.confirmed_iff, matchesEffective_iff]
      rfl
    refine ⟨fun hstop hs => dwelling hstate rfl nofun ?_, fun hno hnot => isRecorded ?_, fun htimer hmatched => ?_⟩
    · rw [rule, if_pos (unsupplied.mpr ⟨hstop, hs⟩)]
    · rw [rule, if_neg (mt unsupplied.mp hno), if_neg fun h => hnot.elim (ends.mp h).1 (absurd (ends.mp h).2)]
    · have runs : ¬(isStopped ∧ ¬supplied) := fun h => by
        have drives := hmatched.1.symm.trans h.1
        cases drives
      have starts : (u.observes n o).judgeDrive n o = (u.observes n o).startEnds n := by
        rw [rule, if_neg (mt unsupplied.mp runs), if_pos (ends.mpr ⟨htimer, hmatched⟩)]
      have drive := hmatched.2.1
      exact ⟨fun hc => taken (starts.trans (State.startEnds_of_same (s := u) hstate hc)),
        fun hc => taken (starts.trans (State.startEnds_of_end (s := u) hstate drive hc)),
        fun hdir hrun hlower => taken (starts.trans (State.startEnds_of_lower (s := u) hstate drive hdir hrun hlower)),
        fun hdir hhigher => taken (starts.trans (State.startEnds_of_higher (s := u) hstate drive hdir hhigher))⟩
  case running =>
    have rule := State.judgeDrive_of_running (o := o) (inState hstate)
    refine ⟨fun hgoes => isRecorded ?_, fun hstop hs => tripping hstate rfl hs ?_,
      fun hstop hs => dwelling hstate rfl nofun ?_⟩
    · rw [rule, if_neg (mt stopped.mp hgoes)]
    · rw [rule, if_pos (stopped.mpr hstop)]
      exact State.unexpectedStop_of_supplied (s := u.observes n o) (feederPresent.mpr hs)
    · rw [rule, if_pos (stopped.mpr hstop)]
      exact State.unexpectedStop_of_unsupplied (s := u.observes n o) (notSupplied hs)
  case stopping =>
    have rule := State.judgeDrive_of_stopping (o := o) (inState hstate)
    have ends : o.drive = .stopped ∧ ((u.observes n o).station n).confirmed = true
        ↔ isStopped ∧ (s.station n).timer ≠ none := by
      rw [State.station_observes, Station.confirmed_iff, stopped]
      rfl
    refine ⟨fun hstop => dwelling hstate rfl nofun ?_, fun hgoes => isRecorded ?_⟩
    · rw [rule, if_pos (ends.mpr hstop)]
    · rw [rule, if_neg (mt ends.mp hgoes)]

end Sys2Proof.Machine
end

section
/-! PROOF. Completions that set one field, the unknown request kind, the report ring's head and tail (O27, O28, O37,
O38, O39). -/

namespace Sys2Proof.Machine

open Sys2Proof

/-! ### Completions that set one field -/

/-- The bytes of a word put together from four. -/
theorem extractLsb'_of_bytes (a b c d : Byte) {i : Nat} (hi : i < 4) : (a ++ b ++ c ++ d).extractLsb' (8 * i) 8 =
    if i = 0 then d else if i = 1 then c else if i = 2 then b else a := by
  refine BitVec.eq_of_getLsbD_eq fun j hj => ?_
  rw [BitVec.getLsbD_extractLsb', decide_eq_true hj, Bool.true_and]
  simp only [BitVec.getLsbD_append]
  grind

/-- Each byte of a merged word is the new one if it is enabled, the old one otherwise. -/
theorem extractLsb'_mergeWord (old data : Word) (e : BitVec 4) {i : Nat} (hi : i < 4) :
    (mergeWord old data e).extractLsb' (8 * i) 8 =
      if e.getLsbD i then data.extractLsb' (8 * i) 8 else old.extractLsb' (8 * i) 8 := by
  have laneOf : (mergeWord old data e).extractLsb' (8 * i) 8 = mergeLane old data e i := by
    unfold mergeWord
    rw [extractLsb'_of_bytes _ _ _ _ hi]
    interval_cases i <;> rfl
  exact laneOf

/-- The copy after a write to the setup block, byte by byte (R176). -/
theorem word_copyAfter (c : Cells Word) (a : Nat) (d : Word) (e : BitVec 4) :
    (∀ j, j ≠ setupOffset a → Setup.word (copyAfter c a d e) j = Setup.word c j)
      ∧ ∀ i, i < 4 → (Setup.word (copyAfter c a d e) (setupOffset a)).extractLsb' (8 * i) 8 =
          if e.getLsbD i then d.extractLsb' (8 * i) 8 else (Setup.word c (setupOffset a)).extractLsb' (8 * i) 8 := by
  have read : ∀ j, Setup.word (copyAfter c a d e) j =
      if j = setupOffset a then mergeWord (Setup.word c (setupOffset a)) d e else Setup.word c j :=
    fun j => Cells.read_write 0 c _ j _
  refine ⟨fun j hj => (read j).trans (if_neg hj), fun i hi => ?_⟩
  rw [read, if_pos rfl]
  exact extractLsb'_mergeWord _ _ _ hi

/-- Settles O27: each completion is the write's end followed by the one assignment. -/
theorem completionsThatSetOneField : Obligations.CompletionsThatSetOneField := by
  refine ⟨fun q a d e n s hpart hflight => ?_, fun q a d e s hpart hflight => ?_, fun q a d e s hpart hflight => ?_⟩
  · have written : s.argumentWrite = { s.finish with args := s.args.put n d } := by
      unfold State.argumentWrite
      rw [s.flightOwner_of hflight, s.flightData_of hflight]
      exact (inGuard_finish_of hpart _).trans (by rw [s.finish_eq])
    exact ⟨_, congrArg Host.Outcome.next written, Completed.of_finish rfl s.finish_inFlight, by rw [s.finish_eq]⟩
  · have written : s.setupWrite = { s.finish with copy := copyAfter s.copy a d e } := by
      unfold State.setupWrite
      rw [hflight]
      exact (if_pos (s.finish_part.trans hpart)).trans (by rw [s.finish_eq])
    exact ⟨_, congrArg Host.Outcome.next written, Completed.of_finish rfl s.finish_inFlight, by rw [s.finish_eq],
      word_copyAfter s.copy a d e⟩
  · have written : s.snapshotComplete = { s.finish with writer := { s.writer with snapshot := none } } := by
      unfold State.snapshotComplete
      rw [s.flightOwner_of hflight]
      exact (inGuard_finish_of hpart _).trans (by rw [s.finish_eq])
    exact ⟨_, congrArg Host.Outcome.next written, Completed.of_finish rfl s.finish_inFlight, by rw [s.finish_eq]⟩

/-! ### The unknown request kind (R168) -/

/-- The reply word's fields (12.3). -/
theorem toNat_replyWord (kind : Nat) (a : Answer) (count : Nat) (hoc : a.outcomeCode < 4) (hrc : a.reasonCode < 256) :
    (replyWord kind a count).toNat =
      kind % 256 + 256 * a.outcomeCode + 65536 * a.reasonCode + 16777216 * (count % 256) := by
  unfold replyWord
  rw [placed_eq, placed_eq, placed_eq, placed_eq, BitVec.toNat_ofNat]
  omega

/-- Settles O28: the request is refused whatever its arguments. -/
theorem unknownKindIsRefused : Obligations.UnknownKindIsRefused := by
  intro kind s hrequest hkind
  have unknown : isUnknownKind kind = true := by
    unfold isUnknownKind
    rw [Bool.or_eq_true, beq_iff_eq, decide_eq_true_iff]
    exact hkind
  have refused : s.unknownRequestKind = answered kind (s.finish, .refused .badKind) := State.request_of hrequest unknown _
  exact ⟨⟨_, congrArg Host.Outcome.next refused, RefusedOnly.of_finish s kind .badKind⟩,
    toNat_replyWord kind (.refused .badKind) _ (by decide) (by decide), rfl⟩

/-! ### Records handed to the buffer (R189) -/

theorem ImageWriter.countDrop_eq (w : ImageWriter) : w.countDrop = { w with
    dropped := if w.dropped < 65535 then w.dropped + 1 else 65535
    workList := if .droppedCount ∈ w.workList then w.workList else w.workList ++ [.droppedCount] } := by
  have count : min 65535 (w.dropped + 1) = if w.dropped < 65535 then w.dropped + 1 else 65535 := by split <;> omega
  unfold ImageWriter.countDrop ImageWriter.placeOnce
  rw [count]
  simp only [List.contains_iff_mem]

/-- Settles O37: the two cases of a hand-over. -/
theorem handedRecordIsKeptOrCounted : Obligations.HandedRecordIsKeptOrCounted :=
  fun w _ => ⟨fun hroom => if_pos hroom, fun hfull => (if_neg (Nat.not_lt.mpr hfull)).trans w.countDrop_eq⟩

/-! ### The head entry against the ring (R190, R192) -/

theorem State.ringFull_iff {s : State} (htail : s.writer.ringTail < Setup.capacity s.copy) : s.ringFull = true ↔
    (s.writer.head + Setup.capacity s.copy - s.writer.ringTail) % Setup.capacity s.copy = Setup.capacity s.copy - 1 := by
  unfold State.ringFull ringDiff
  rw [Nat.mod_eq_of_lt htail, beq_iff_eq]

/-- Settles O38: a record's and an OVERFLOW entry's turn. -/
theorem headEntryIsCheckedAgainstTheRing : Obligations.HeadEntryIsCheckedAgainstTheRing := by
  intro rest s hpart htail full
  have isFull : full → s.ringFull = true := (State.ringFull_iff htail).mpr
  have hasRoom : ¬full → ¬s.ringFull = true := mt (State.ringFull_iff htail).mp
  refine ⟨fun _ => Setup.capacity_of_size, fun hlist => ⟨fun hroom => ?_, fun hfull => ?_⟩,
    fun hlist => ⟨fun hfull => ?_, fun hroom => ?_⟩⟩ <;>
    refine congrArg Host.Outcome.next ((inGuard_of hpart _).trans ?_)
  · unfold State.recordDue
    rw [hlist]
    exact if_neg (hasRoom hroom)
  · unfold State.recordDue
    rw [hlist]
    refine (if_pos (isFull hfull)).trans ?_
    rw [ImageWriter.dropHead, ImageWriter.countDrop_eq, ImageWriter.leave_of_head hlist]
  · unfold State.overflowTurn
    rw [hlist]
    refine (if_pos (isFull hfull)).trans ?_
    rw [ImageWriter.leave_of_head hlist]
  · unfold State.overflowTurn
    rw [hlist]
    refine (if_neg (hasRoom hroom)).trans ?_
    unfold ImageWriter.placeOnce
    simp only [List.contains_iff_mem, List.mem_cons, reduceCtorEq, false_or]
    split <;> simp [overflowRecord, mkRecord]

/-! ### The head's completion and the tail's write (R190-R193) -/

/-- Where an OVERFLOW entry joins a work list that holds none (R192). -/
theorem placeOverflow_of_present {l : List WorkEntry} (h : ∃ x ∈ l, x.isOverflow = true) (underWay : Bool) :
    placeOverflow underWay l = l := if_pos (List.any_eq_true.mpr h)

theorem placeOverflow_nil (underWay : Bool) : placeOverflow underWay [] = [.overflow none] := rfl

theorem placeOverflow_cons {x : WorkEntry} {l : List WorkEntry} (h : ∀ y ∈ x :: l, y.isOverflow = false) (underWay : Bool) :
    placeOverflow underWay (x :: l) = if underWay then x :: .overflow none :: l else .overflow none :: x.undue :: l := by
  refine if_neg fun hany => ?_
  obtain ⟨y, hy, hover⟩ := List.any_eq_true.mp hany
  exact Bool.false_ne_true ((h y hy).symm.trans hover)

theorem WorkEntry.undue_of_ne {x : WorkEntry} (h : ∀ due, x ≠ .record due) : x.undue = x := by
  cases x with
  | record due => exact absurd rfl (h due)
  | _ => rfl

/-- Settles O39: the two completions, and where the OVERFLOW entry joins. -/
theorem unreadRecordsFollowHeadAndTail : Obligations.UnreadRecordsFollowHeadAndTail := by
  refine ⟨fun q a d e cls s hpart hflight => ?_, fun q a d e s hpart hflight => ?_⟩
  · have read : s.recordHeadCompletion = s.finish.recordRead cls := by
      unfold State.recordHeadCompletion
      rw [s.flightOwner_of hflight]
      exact inGuard_finish_of hpart _
    refine ⟨_, congrArg Host.Outcome.next read, Completed.of_finish rfl s.finish_inFlight, ?_, ?_⟩
    · unfold State.recordRead
      rw [s.finish_eq]
    · have judged : (s.finish.recordRead cls).writer.interrupt =
          interruptLevel s.copy (s.finish.recordRead cls).writer.unread := by rw [s.finish_eq]; rfl
      rw [judged]
      exact interruptLevel_iff _ _
  · intro freed
    have moved : s.tailWrite = s.finish.tailMoved d.toNat := by
      unfold State.tailWrite
      rw [s.flightOwner_of hflight, s.flightData_of hflight]
      exact inGuard_finish_of hpart _
    have count : s.finish.slotsFreed d.toNat = freed := by rw [s.finish_eq]; rfl
    have list : (s.finish.tailMoved d.toNat).writer.workList = if 0 < freed ∧ 0 < s.writer.dropped then
        placeOverflow (decide (0 < s.writer.progress)) s.writer.workList else s.writer.workList := by
      unfold State.tailMoved
      rw [count, s.finish_writer]
    refine ⟨_, congrArg Host.Outcome.next moved, Completed.of_finish rfl s.finish_inFlight, ?_, fun hring hd => ?_, ?_, ?_, ?_⟩
    · unfold State.tailMoved
      rw [count, s.finish_eq]
    · have lands : freed = fromTail _ _ _ := ringDiff_eq hring
      rw [lands]
      exact ⟨(fromTail_iff hring hd (fromTail_lt hring)).mpr rfl, fromTail_lt hring⟩
    · have judged : (s.finish.tailMoved d.toNat).writer.interrupt =
          interruptLevel s.copy (s.finish.tailMoved d.toNat).writer.unread := by rw [s.finish_eq]; rfl
      rw [judged]
      exact interruptLevel_iff _ _
    · intro hnone
      rw [list]
      obtain hfreed | hdropped | hover := hnone
      · exact if_neg fun h => by omega
      · exact if_neg fun h => by omega
      · rw [placeOverflow_of_present hover, ite_self]
    · intro hfreed hdropped hover
      rw [list, if_pos ⟨hfreed, hdropped⟩]
      refine ⟨fun hl => by rw [hl, placeOverflow_nil], fun x l hl => ?_⟩
      rw [hl] at hover
      rw [hl, placeOverflow_cons hover]
      refine ⟨fun hway => if_pos (decide_eq_true hway), fun hway hdue => ?_, fun hway hother => ?_⟩
      · obtain ⟨due, rfl⟩ := hdue
        rw [hway]
        rfl
      · rw [hway, WorkEntry.undue_of_ne hother]
        rfl

end Sys2Proof.Machine
end

section
/-! PROOF. GUARD entry, and the airflow timers (O42, O47). -/

namespace Sys2Proof.Machine

open Sys2Proof

/-! ### GUARD entry (R173, R184) -/

theorem PortState.atEntry_eq (x : PortState) : x.atEntry = ({ x with disposed := none } : PortState).release := rfl

theorem State.port_enterGuard (s : State) (p : Port) : s.enterGuard.port p = (s.port p).atEntry := by cases p <;> rfl

theorem PortState.atEntry_disposed (x : PortState) : x.atEntry.disposed = none :=
  (PortState.release_buffer { x with disposed := none }).1

/-- Settles O42: the write's end, the starting values, and each port by what it holds. -/
theorem guardEntryTakesTheStartingValues : Obligations.GuardEntryTakesTheStartingValues := by
  intro q a d e s hpart hflight
  have entered : s.guardEntry = s.finish.enterGuard := by
    unfold State.guardEntry
    rw [s.flightOwner_of hflight]
    exact if_pos hpart
  refine ⟨_, congrArg Host.Outcome.next entered, Completed.of_finish rfl s.finish_inFlight, rfl, rfl, s.finish_stations,
    s.finish_copy, fun f => Table.nth_replicate _ f, fun k => ?_, rfl, rfl, rfl, rfl, fun n => Table.nth_replicate _ n, rfl,
    ?_, ?_, ?_, fun p => ?_⟩
  · refine (Table.nth_tabulate _ k).trans ?_
    rw [s.finish_copy]
    rfl
  · rw [s.finish_eq]
    rfl
  · rw [s.finish_eq]
    rfl
  · rw [s.finish_eq]
    rfl
  · have port : s.finish.enterGuard.port p = (s.port p).atEntry := by
      rw [State.port_enterGuard, s.finish_eq]
      cases p <;> rfl
    rw [port]
    refine ⟨PortState.atEntry_disposed _, fun w hheld hroom => ?_, fun b hheld hread => ?_, fun hheld => ?_⟩
    · rw [PortState.atEntry_eq, PortState.release_of_write (x := { s.port p with disposed := none }) hheld,
        if_pos ((PortState.room_iff { s.port p with disposed := none }).mpr hroom)]
      exact ⟨rfl, rfl⟩
    · rw [PortState.atEntry_eq, PortState.release_of_read (x := { s.port p with disposed := none }) hheld hread]
      exact ⟨rfl, rfl⟩
    · exact PortState.release_of_none (x := { s.port p with disposed := none }) hheld

/-! ### The failing anemometer and the lowest velocity (R126, R138) -/

/-- The first failing anemometer of a watch list, with what it fails. -/
theorem firstFailing_eq_some {c : Cells Word} {m : AirflowMonitor} {i : Incident} {before after : List Nat} {a : Nat}
    (hlist : Setup.watchList c i.plan = before ++ a :: after)
    (hbefore : ∀ x ∈ before, anemometerReason i.flow (Setup.plan c i.plan).velocity (m.entry x) = .none)
    (ha : anemometerReason i.flow (Setup.plan c i.plan).velocity (m.entry a) ≠ .none) :
    firstFailing c m i = some (a, anemometerReason i.flow (Setup.plan c i.plan).velocity (m.entry a)) := by
  have pass : (before.map fun n => (n, anemometerReason i.flow (Setup.plan c i.plan).velocity (m.entry n))).find?
      (fun x => x.2 != .none) = none := by
    rw [List.find?_eq_none, List.forall_mem_map]
    intro x hx
    rw [hbefore x hx]
    nofun
  unfold firstFailing
  rw [hlist, List.map_append, List.find?_append, pass, Option.none_or]
  exact List.find?_cons_of_pos (bne_iff_ne.mpr ha)

theorem firstFailing_eq_none {c : Cells Word} {m : AirflowMonitor} {i : Incident} (h : ∀ x ∈ Setup.watchList c i.plan,
    anemometerReason i.flow (Setup.plan c i.plan).velocity (m.entry x) = .none) : firstFailing c m i = none :=
  Option.isNone_iff_eq_none.mp ((metFor_iff c m i).mpr h)

theorem anemometerReason_code {flow : Dir} {target : Nat} {a : Anemometer} (h : anemometerReason flow target a ≠ .none) :
    (anemometerReason flow target a).code = if a.fresh = false then 1 else if a.valid = false then 2 else 3 := by
  unfold anemometerReason at *
  cases hfresh : a.fresh with
  | false => rfl
  | true =>
    cases hvalid : a.valid with
    | false => rfl
    | true =>
      by_cases hbelow : inFlow flow a.velocity < (target : Int)
      · simp only [hbelow]
        rfl
      · exact absurd (by simp [hbelow, hfresh, hvalid]) h

/-- What a record shows of the failing anemometer at a moment. -/
theorem State.showsFailing_firstFailing (s : State) (i : Incident) : s.showsFailing i
    (failingReason (firstFailing s.copy s.airflow i)) (failingDetail s.copy (firstFailing s.copy s.airflow i)) := by
  refine ⟨fun before a after hlist hbefore ha => ?_, fun hall => ?_⟩
  · have fails : anemometerReason i.flow (Setup.plan s.copy i.plan).velocity (s.airflow.entry a) ≠ .none :=
      mt (anemometerReason_eq_none _ _ _).mp ha
    have first : firstFailing s.copy s.airflow i = some (a, _) :=
      firstFailing_eq_some hlist (fun x hx => (anemometerReason_eq_none _ _ _).mpr (hbefore x hx)) fails
    have segment : Setup.anemometerSegment s.copy a % 256 = Setup.anemometerSegment s.copy a := by
      unfold Setup.anemometerSegment bits
      omega
    rw [first]
    refine ⟨?_, anemometerReason_code fails⟩
    unfold failingDetail
    dsimp only
    rw [placed_eq, placed_eq, Nat.pow_zero, Nat.one_mul]
    exact congrArg (fun x => a % 256 + 256 * x) segment
  · rw [firstFailing_eq_none fun x hx => (anemometerReason_eq_none _ _ _).mpr (hall x hx)]
    exact ⟨rfl, rfl⟩

theorem failingReason_lt (x : Option (Nat × AirflowReason)) : failingReason x < 2 ^ 4 := by
  have code : ∀ r : AirflowReason, r.code < 2 ^ 4 := by intro r; cases r <;> decide
  cases x with
  | none => exact code .none
  | some x => exact code x.2

/-- The lowest of the velocities along the flow. -/
theorem lowestVelocity_of (c : Cells Word) (m : AirflowMonitor) (i : Incident) :
    (∀ v ∈ (Setup.watchList c i.plan).map (fun a => inFlow i.flow (m.entry a).velocity), lowestVelocity c m i ≤ v)
      ∧ ((Setup.watchList c i.plan).map (fun a => inFlow i.flow (m.entry a).velocity) ≠ [] →
        lowestVelocity c m i ∈ (Setup.watchList c i.plan).map (fun a => inFlow i.flow (m.entry a).velocity)) := by
  unfold lowestVelocity
  cases (Setup.watchList c i.plan).map (fun a => inFlow i.flow (m.entry a).velocity) with
  | nil => exact ⟨nofun, fun h => absurd rfl h⟩
  | cons v vs =>
    obtain ⟨least, below⟩ := List.min?_eq_some_iff.mp (List.min?_cons' (x := v) (xs := vs))
    exact ⟨below, fun _ => least⟩

/-! ### The hold timer's expiry (R130, R135) -/

theorem establishedRecord_eq (s : State) (i : Incident) : establishedRecord s i =
    { kind := .airflowEstablished, stamp := s.stamp, subject := BitVec.ofNat 32 i.number
      detailA := BitVec.ofNat 16 (i.plan % 256 + if i.airflow = .short then 256 else 0)
      detailB := BitVec.ofNat 32 (min 65535 (s.tenths - s.airflow.pendingSince)
        + 65536 * (BitVec.ofInt 16 (lowestVelocity s.copy s.airflow i)).toNat) } := by
  have phase : placed 8 1 (phaseCode i.airflow) = if i.airflow = .short then 256 else 0 := by cases i.airflow <;> rfl
  have lowest := (BitVec.ofInt 16 (lowestVelocity s.copy s.airflow i)).isLt
  unfold establishedRecord mkRecord tenthsSince
  rw [phase, placed_eq, placed_of_lt (lo := 0) (width := 16) (by omega), placed_of_lt lowest, Nat.pow_zero, Nat.one_mul,
    Nat.one_mul]
  rfl

theorem airflowLostRecord_eq (s : State) (i : Incident) : airflowLostRecord s i =
    { kind := .airflowLost, stamp := s.stamp, subject := BitVec.ofNat 32 i.number
      detailA := BitVec.ofNat 16 (i.plan % 256 + 256 * failingReason (firstFailing s.copy s.airflow i))
      detailB := BitVec.ofNat 32 (failingDetail s.copy (firstFailing s.copy s.airflow i)) } := by
  unfold airflowLostRecord mkRecord
  rw [placed_eq, placed_of_lt (failingReason_lt _), Nat.pow_zero, Nat.one_mul]
  rfl

/-- Settles O47: the expiry in each state of the airflow. -/
theorem holdTimerExpiryMovesTheAirflow : Obligations.HoldTimerExpiryMovesTheAirflow := by
  intro i s hpart hincident hhold
  refine ⟨fun hphase => ?_, fun hphase => ?_⟩
  · have expired : s.holdExpiry = { s with
        incident := some { i with airflow := .established }
        airflow := { s.airflow with hold := none, deadline := none }
        writer := s.writer.hand (establishedRecord s i) } := by
      unfold State.holdExpiry
      rw [hincident]
      exact if_pos ⟨hphase, by rw [hhold]; rfl⟩
    refine ⟨_, congrArg Host.Outcome.next ((inGuard_of hpart _).trans expired), lowestVelocity s.copy s.airflow i, ?_⟩
    intro speeds
    have along : (Setup.watchList s.copy i.plan).map (fun a => inFlow i.flow (s.airflow.entry a).velocity) = speeds :=
      List.map_congr_left fun a _ => inFlow_eq _ _
    obtain ⟨below, least⟩ := lowestVelocity_of s.copy s.airflow i
    rw [along] at below least
    exact ⟨below, least, by rw [establishedRecord_eq]⟩
  · have expired : s.lossExpiry = { s with
        incident := some { i with airflow := .pending }
        airflow := { s.airflow with
          hold := none, deadline := some (Setup.plan s.copy i.plan).deadline, pendingSince := s.tenths }
        writer := s.writer.hand (airflowLostRecord s i) } := by
      unfold State.lossExpiry
      rw [hincident]
      exact if_pos ⟨hphase, by rw [hhold]; rfl⟩
    exact ⟨_, congrArg Host.Outcome.next ((inGuard_of hpart _).trans expired), _, _, s.showsFailing_firstFailing i,
      by rw [airflowLostRecord_eq]⟩

end Sys2Proof.Machine
end

section
/-! PROOF. Requests that refuse or touch one station or the alarm list (O33, O34, O35). -/

namespace Sys2Proof.Machine

open Sys2Proof

/-! ### Records taken by the image writer (R189) -/

/-- Two image writers whose record buffers stand alike. -/
def ImageWriter.sameBuffer (w w' : ImageWriter) : Prop := w'.buffer = w.buffer ∧ w'.dropped = w.dropped

theorem ImageWriter.sameBuffer_hand {w w' : ImageWriter} (h : w.sameBuffer w') (r : ReportRecord) :
    (w.hand r).sameBuffer (w'.hand r) := by
  obtain ⟨hbuffer, hdropped⟩ := h
  unfold ImageWriter.hand
  rw [hbuffer]
  split
  · exact ⟨by rw [← hbuffer], hdropped⟩
  · refine ⟨hbuffer, ?_⟩
    show min 65535 (w'.dropped + 1) = min 65535 (w.dropped + 1)
    rw [hdropped]

theorem ImageWriter.sameBuffer_handAll {w w' : ImageWriter} (h : w.sameBuffer w') (rs : List ReportRecord) :
    (w.handAll rs).sameBuffer (w'.handAll rs) := by
  induction rs generalizing w w' with
  | nil => exact h
  | cons r rs ih => exact ih (ImageWriter.sameBuffer_hand h r)

theorem ImageWriter.tookRecords_iff (w w' : ImageWriter) (rs : List ReportRecord) :
    w.tookRecords w' rs ↔ (w.handAll rs).sameBuffer w' ∧ w.took w' := and_assoc.symm

theorem ImageWriter.tookRecords_handAll (w : ImageWriter) (rs : List ReportRecord) : w.tookRecords (w.handAll rs) rs :=
  (ImageWriter.tookRecords_iff ..).mpr ⟨⟨rfl, rfl⟩, w.took_handAll rs⟩

theorem ImageWriter.tookRecords_refl (w : ImageWriter) : w.tookRecords w [] := w.tookRecords_handAll []

theorem ImageWriter.tookRecords_placeOnce (w : ImageWriter) (e : WorkEntry) : w.tookRecords (w.placeOnce e) [] :=
  (ImageWriter.tookRecords_iff ..).mpr ⟨⟨rfl, rfl⟩, w.took_placeOnce e⟩

theorem ImageWriter.tookRecords_append (w : ImageWriter) (e : WorkEntry) : w.tookRecords (w.append e) [] :=
  (ImageWriter.tookRecords_iff ..).mpr ⟨⟨rfl, rfl⟩, w.took_append e⟩

theorem ImageWriter.tookRecords_trans {w w' w'' : ImageWriter} {rs rs' : List ReportRecord} (h : w.tookRecords w' rs)
    (h' : w'.tookRecords w'' rs') : w.tookRecords w'' (rs ++ rs') := by
  rw [ImageWriter.tookRecords_iff] at *
  obtain ⟨same, took⟩ := h
  obtain ⟨same', took'⟩ := h'
  have all : w.handAll (rs ++ rs') = (w.handAll rs).handAll rs' := List.foldl_append
  obtain ⟨hbuffer, hdropped⟩ := ImageWriter.sameBuffer_handAll same rs'
  rw [all]
  exact ⟨⟨same'.1.trans hbuffer, same'.2.trans hdropped⟩, ImageWriter.took_trans took took'⟩

/-! ### A request taken (R167, R168) -/

/-- The state at which a request is taken: its write has completed. -/
def State.delivered (s : State) : State := { s with mem := s.finish.mem, inFlight := none }

/-- A request that is answered without effect. -/
theorem answered_only (s : State) (kind : Nat) (a : Answer) : Completed s (answered kind (s.delivered, a))
    ∧ answered kind (s.delivered, a) = { s with
        mem := (answered kind (s.delivered, a)).mem, inFlight := none, requestCount := countAfter s.requestCount
        writer := s.writer.append (.reply (replyWord kind a (countAfter s.requestCount))) } :=
  ⟨Completed.of_finish rfl rfl, rfl⟩

theorem refused_only (s : State) (kind : Nat) (r : Reason) : RefusedOnly s (answered kind (s.delivered, .refused r)) kind r :=
  answered_only s kind (.refused r)

/-- What a request leaves that moves one station. -/
theorem answered_wordLeaves (s : State) (kind : Nat) (a : Answer) (n : StationNo) (d : Station) (f : Feeder)
    {w : ImageWriter} {rs : List ReportRecord} (reports : List AvailabilityReport) (hw : s.writer.tookRecords w rs) :
    let t := answered kind (s.delivered.wordLeaves n d f w reports, a)
    t.station n = d ∧ t.feeders = s.feeders.put (s.feederNo n) f ∧ t.reports = s.reports ++ reports
      ∧ s.writer.tookRecords t.writer rs ∧ (∀ m, m ≠ n → t.station m = s.station m) ∧ Replied s t kind a ∧ Completed s t
      ∧ ({ s with mem := t.mem, inFlight := none, requestCount := t.requestCount } : State).stationsOnly t := by
  have replied : ∀ e, s.writer.tookRecords (w.append e) rs := fun e => by
    rw [← List.append_nil rs]
    exact ImageWriter.tookRecords_trans hw (w.tookRecords_append e)
  exact ⟨Table.nth_put_self _ _ _, rfl, rfl, replied _, fun m hm => Table.nth_put_ne _ _ hm, ⟨rfl, _, rfl⟩,
    Completed.of_finish rfl rfl, rfl, ((ImageWriter.tookRecords_iff ..).mp (replied _)).2⟩

/-- A transition to a state other than QUEUED: a state already shown places no entry. -/
theorem State.moveStation_leaves (s : State) (n : StationNo) {d : Station} (h : d.state ≠ .queued) (l : List ReportRecord) :
    ∃ b w, s.moveStation n d l = s.wordLeaves n { d with entered := true, writeBackPending := b } (s.feederLeft n) w
        (availabilityChange s n (s.station n) d) ∧ s.writer.tookRecords w l := by
  rw [← feederAfterMove_of_left s n rfl h]
  by_cases shown : (s.station n).shown = ({ d with entered := true } : Station).shown
  · have entered : s.enterState n d = { s with stations := s.stations.put n { d with entered := true } } :=
      s.putStation_of_shown n _ shown
    refine ⟨d.writeBackPending, s.writer.handAll l, ?_, s.writer.tookRecords_handAll l⟩
    unfold State.moveStation
    rw [entered]
    rfl
  · have entered := s.putStation_of_change n { d with entered := true } shown
    refine ⟨true, (s.writer.placeOnce (.station n)).handAll l, ?_,
      ImageWriter.tookRecords_trans (s.writer.tookRecords_placeOnce _) (ImageWriter.tookRecords_handAll _ l)⟩
    unfold State.moveStation State.enterState
    rw [entered]
    rfl

/-! ### ALARM_ACK (R152) -/

section acknowledged

variable {s : State} {g : SegmentNo} (hg : g.val < Setup.segmentCount s.copy)
include hg

theorem State.takeAlarmAck_of_none (h : s.alarms.entryOf g = none) : s.takeAlarmAck g.val = (s, .refused .notInAlarm) := by
  unfold State.takeAlarmAck
  rw [if_neg (Nat.not_le.mpr hg), dif_pos g.isLt, h]

variable {x : AlarmEntry} (hx : s.alarms.entryOf g = some x)
include hx

theorem State.takeAlarmAck_of_incident (h : x.covering = .incident) : s.takeAlarmAck g.val = (s, .refused .tooLate) := by
  unfold State.takeAlarmAck
  rw [if_neg (Nat.not_le.mpr hg), dif_pos g.isLt, hx]
  dsimp only
  rw [h]

theorem State.takeAlarmAck_of_ack (h : x.covering = .ack) : s.takeAlarmAck g.val = (s, .done) := by
  unfold State.takeAlarmAck
  rw [if_neg (Nat.not_le.mpr hg), dif_pos g.isLt, hx]
  dsimp only
  rw [h]

theorem State.takeAlarmAck_of_uncovered (h : x.covering = .uncovered) (hactive : s.alarms.escalation ≠ .idle) :
    s.takeAlarmAck g.val =
      ({ s with alarms := { s.alarms with alarmList := ackEntry s.alarms.alarmList g }.settle }, .done) := by
  unfold State.takeAlarmAck
  rw [if_neg (Nat.not_le.mpr hg), dif_pos g.isLt, hx]
  dsimp only
  rw [h]
  dsimp only
  rw [if_neg hactive]

end acknowledged

theorem State.alarmAck_of_request {s : State} (h : s.requestInFlight 2) :
    exec .alarmAck s = .next (answered 2 (s.delivered.takeAlarmAck (s.arg 0))) := by
  have taken : s.alarmAck = answered 2 (s.finish.takeAlarmAck (s.finish.arg 0)) := State.request_of h rfl _
  rw [State.arg_finish, s.finish_eq] at taken
  exact congrArg Host.Outcome.next taken

theorem AlarmEscalator.settle_of_none {a : AlarmEscalator} (h : a.uncoveredCount = 0) :
    a.settle = { a with escalation := .idle, stage := none } := if_pos h

theorem AlarmEscalator.settle_of_left {a : AlarmEscalator} (h : a.uncoveredCount ≠ 0) : a.settle = a := if_neg h

/-- Settles O33: the checks in their order, and the entry acknowledged. -/
theorem alarmAckCoversTheEntry : Obligations.AlarmAckCoversTheEntry := by
  intro s hrequest
  have run := State.alarmAck_of_request hrequest
  refine ⟨fun hsegment => ⟨_, run, ?_⟩, fun g harg hg => ?_⟩
  · have refused : s.delivered.takeAlarmAck (s.arg 0) = (s.delivered, .refused .badSegment) := if_pos hsegment
    rw [refused]
    exact refused_only s 2 _
  · rw [harg] at run
    refine ⟨fun hnone => ⟨_, run, ?_⟩, fun x hx => ⟨fun hcover => ⟨_, run, ?_⟩, fun hcover => ⟨_, run, ?_⟩,
      fun hcover hactive => ⟨_, run, ?_⟩⟩⟩
    · rw [State.takeAlarmAck_of_none (s := s.delivered) hg hnone]
      exact refused_only s 2 _
    · rw [State.takeAlarmAck_of_incident (s := s.delivered) hg hx hcover]
      exact refused_only s 2 _
    · rw [State.takeAlarmAck_of_ack (s := s.delivered) hg hx hcover]
      exact answered_only s 2 .done
    · rw [State.takeAlarmAck_of_uncovered (s := s.delivered) hg hx hcover hactive]
      by_cases hleft : ({ s.alarms with alarmList := ackEntry s.alarms.alarmList g } : AlarmEscalator).uncoveredCount = 0
      · rw [show s.delivered.alarms = s.alarms from rfl, AlarmEscalator.settle_of_none hleft]
        exact ⟨rfl, rfl, rfl, fun _ => ⟨rfl, rfl⟩, fun h => absurd hleft h, Completed.of_finish rfl rfl, rfl⟩
      · rw [show s.delivered.alarms = s.alarms from rfl, AlarmEscalator.settle_of_left hleft]
        exact ⟨rfl, rfl, rfl, fun h => absurd h hleft, fun _ => ⟨rfl, rfl⟩, Completed.of_finish rfl rfl, rfl⟩

/-! ### TRIP_RESET (R21) -/

theorem State.tripReset_of_request {s : State} (h : s.requestInFlight 4) :
    exec .tripReset s = .next (answered 4 (s.delivered.takeTripReset (s.arg 0))) := by
  have taken : s.tripReset = answered 4 (s.finish.takeTripReset (s.finish.arg 0)) := State.request_of h rfl _
  rw [State.arg_finish, s.finish_eq] at taken
  exact congrArg Host.Outcome.next taken

theorem State.takeTripReset_of_station {s : State} {n : StationNo} {k : Nat} (hn : n.val = k) (hpresent : s.present n = true) :
    s.takeTripReset k = if (s.station n).state ≠ .tripped then (s, .refused .notTripped)
      else if (s.station n).tripFlag then (s, .refused .stillTripped)
      else (s.moveStation n ((s.station n).tripCleared (s.static n).dwell) [], .done) := by
  unfold State.takeTripReset
  rw [State.namedStation_some s hn hpresent]

theorem Station.tripFlag_iff (d : Station) : d.tripFlag = true ↔ ∃ o, d.observed = some o ∧ o.trip = true := by
  unfold Station.tripFlag
  cases d.observed <;> simp

/-- Settles O35: the checks in their order, and the way to DWELL. -/
theorem tripResetTakesTheStationToDwell : Obligations.TripResetTakesTheStationToDwell := by
  intro s hrequest
  have run := State.tripReset_of_request hrequest
  refine ⟨fun hnone => ⟨_, run, ?_⟩, fun n hn hpresent => ?_⟩
  · have refused : s.delivered.takeTripReset (s.arg 0) = (s.delivered, .refused .noStation) := by
      unfold State.takeTripReset
      rw [State.namedStation_none s.delivered hnone]
    rw [refused]
    exact refused_only s 4 _
  · rw [State.takeTripReset_of_station (s := s.delivered) hn hpresent] at run
    refine ⟨fun hstate => ⟨_, run, ?_⟩, fun hstate hflag => ⟨_, run, ?_⟩, fun hstate hflag => ⟨_, run, ?_⟩⟩
    · rw [if_pos (show (s.delivered.station n).state ≠ .tripped from hstate)]
      exact refused_only s 4 _
    · rw [if_neg (not_not.mpr (show (s.delivered.station n).state = .tripped from hstate)),
        if_pos ((s.delivered.station n).tripFlag_iff.mpr hflag)]
      exact refused_only s 4 _
    · have clear : ¬(s.delivered.station n).tripFlag = true := fun h => by
        obtain ⟨o, ho, htrip⟩ := (s.delivered.station n).tripFlag_iff.mp h
        exact Bool.false_ne_true ((hflag o ho).symm.trans htrip)
      rw [if_neg (not_not.mpr (show (s.delivered.station n).state = .tripped from hstate)), if_neg clear]
      obtain ⟨b, w, moved, took⟩ := s.delivered.moveStation_leaves n
        (d := (s.delivered.station n).tripCleared (s.delivered.static n).dwell) (by nofun) []
      have idle : s.delivered.feederLeft n = s.feeder (s.feederNo n) := State.feederLeft_of_idle
        (by rw [show (s.delivered.station n).state = .tripped from hstate]; nofun)
        (by rw [show (s.delivered.station n).state = .tripped from hstate]; nofun)
      rw [moved, availabilityChange_to_service rfl, idle]
      obtain ⟨station, feeders, reports, records, others, replied, completed, only⟩ := answered_wordLeaves s 4 .done n
        { (s.delivered.station n).tripCleared (s.delivered.static n).dwell with entered := true, writeBackPending := b }
        (s.feeder (s.feederNo n))
        (if (s.feeder (s.feederNo n)).supply = .present ∧ (s.station n).state.out = true then
          [{ station := n, available := true }] else []) took
      rw [s.feeders_put_self] at feeders
      have shows {α : Type} (field : Station → α) := congrArg field station
      refine ⟨shows Station.state, shows Station.timer, shows Station.tripCause, shows Station.request,
        shows Station.target, shows Station.effective, feeders, records, reports.trans (congrArg _ ?_), others, replied, completed, only⟩
      rw [hstate]
      exact if_congr (and_iff_left rfl) rfl rfl

/-! ### LOCK (R20) -/

theorem State.lock_of_request {s : State} (h : s.requestInFlight 3) :
    exec .lock s = .next (answered 3 (s.delivered.takeLock (s.arg 0) (s.arg 1))) := by
  have taken : s.lock = answered 3 (s.finish.takeLock (s.finish.arg 0) (s.finish.arg 1)) := State.request_of h rfl _
  rw [State.arg_finish, State.arg_finish, s.finish_eq] at taken
  exact congrArg Host.Outcome.next taken

theorem State.takeLock_of_station {s : State} {n : StationNo} {k : Nat} (hn : n.val = k) (hpresent : s.present n = true)
    (on : Nat) : s.takeLock k on =
      if 1 < on then (s, .refused .badArg) else (s.operatorLock n (on == 1), .done) := by
  unfold State.takeLock
  rw [State.namedStation_some s hn hpresent]

/-- With LOCAL held the operator's cause leaves the state. -/
theorem State.changeLocks_of_local {s : State} {n : StationNo} {k : Nat} {b : Bool} {l : LockSet}
    (hheld : (s.station n).locks.localSwitch = true) (h : l.localSwitch = true) : s.changeLocks n k b l =
      s.wordLeaves n { s.station n with locks := l } (s.feeder (s.feederNo n)) (s.writer.handAll [lockRecord s n k b l])
        [] := by
  have held : (s.station n).locks.empty = false := by unfold LockSet.empty; rw [hheld, Bool.not_true, Bool.and_false]
  have stays : l.empty = false := by unfold LockSet.empty; rw [h, Bool.not_true, Bool.and_false]
  unfold State.changeLocks State.wordLeaves
  dsimp only
  rw [held, stays, s.putStation_of_shown n { s.station n with locks := l } rfl, s.feeders_put_self, List.append_nil]
  rfl

theorem Station.unlocked_of_stopped {d : Station} (h : ∃ o, d.observed = some o ∧ o.drive = .stopped) (dwell : Nat) :
    d.unlocked dwell = d.toDwell dwell := by
  obtain ⟨o, ho, hdrive⟩ := h
  unfold Station.unlocked
  rw [ho]
  exact if_pos hdrive

theorem Station.unlocked_of_moving {d : Station} (h : ¬∃ o, d.observed = some o ∧ o.drive = .stopped) (dwell : Nat) :
    d.unlocked dwell = d.toStopping := by
  unfold Station.unlocked
  split
  · next o ho => exact if_neg fun hdrive => h ⟨o, ho, hdrive⟩
  · rfl

/-- A station as its last lock cause goes. -/
def Station.lockLifted (d : Station) (dwell : Nat) : Station :=
  { d.unlocked dwell with locks := { operator := false, localSwitch := false } }

/-- Whatever is observed, a station that leaves LOCKED is in service, stopped, and not queued. -/
theorem Station.lockLifted_keeps (d : Station) (dwell : Nat) :
    (d.lockLifted dwell).effective = { d.effective with speed := .off } ∧ (d.lockLifted dwell).request = d.request
      ∧ (d.lockLifted dwell).target = d.target ∧ (d.lockLifted dwell).state ≠ .queued
      ∧ (d.lockLifted dwell).state.out = false := by
  unfold Station.lockLifted
  by_cases h : ∃ o, d.observed = some o ∧ o.drive = .stopped
  · rw [Station.unlocked_of_stopped h]
    exact ⟨rfl, rfl, rfl, nofun, rfl⟩
  · rw [Station.unlocked_of_moving h]
    exact ⟨rfl, rfl, rfl, nofun, rfl⟩

/-- Settles O34: the checks in their order, and the set of causes before and after. -/
theorem lockRequestMovesTheStation : Obligations.LockRequestMovesTheStation := by
  intro s hrequest
  have run := State.lock_of_request hrequest
  refine ⟨fun hnone => ⟨_, run, ?_⟩, fun n hn hpresent => ?_⟩
  · have refused : s.delivered.takeLock (s.arg 0) (s.arg 1) = (s.delivered, .refused .noStation) := by
      unfold State.takeLock
      rw [State.namedStation_none s.delivered hnone]
    rw [refused]
    exact refused_only s 3 _
  rw [State.takeLock_of_station (s := s.delivered) hn hpresent] at run
  have taken (h : s.arg 1 ≤ 1) :
      exec .lock s = .next (answered 3 (s.delivered.operatorLock n (s.arg 1 == 1), .done)) := by
    rw [run, if_neg (Nat.not_lt.mpr h)]
  intro supplied out changed
  refine ⟨fun hbad => ⟨_, run, ?_⟩, fun harg hsame => ⟨_, taken harg, ?_⟩, fun harg hlocks => ⟨_, taken harg.le, ?_⟩,
    fun harg hlocks => ⟨_, taken (by omega), ?_⟩, fun harg hlocks => ⟨_, taken harg, ?_⟩⟩
  · rw [if_pos hbad]
    exact refused_only s 3 _
  · have same : s.delivered.operatorLock n (s.arg 1 == 1) = s.delivered := if_pos hsame
    rw [same]
    exact answered_only s 3 .done
  · have before : (s.delivered.station n).locks = { operator := false, localSwitch := false } := hlocks
    have cause : s.delivered.operatorLock n (s.arg 1 == 1) =
        s.delivered.changeLocks n 0 true { operator := true, localSwitch := false } := by
      unfold State.operatorLock
      rw [harg, before]
      rfl
    obtain ⟨b, w, moved, took⟩ := s.delivered.moveStation_leaves n
      (d := { (s.delivered.station n).toLocked with locks := { operator := true, localSwitch := false } }) (by nofun)
      [lockRecord s.delivered n 0 true { operator := true, localSwitch := false }]
    rw [lockRecord_eq _ _ (by decide)] at took
    rw [cause, State.changeLocks_of_first (by rw [before]; rfl) rfl, moved, availabilityChange_to_out rfl]
    obtain ⟨station, feeders, reports, records, others, replied, completed, only⟩ := answered_wordLeaves s 3 .done n
      { (s.delivered.station n).toLocked with
        locks := { operator := true, localSwitch := false }, entered := true, writeBackPending := b }
      (s.delivered.feederLeft n)
      (if (s.feeder (s.feederNo n)).supply = .present ∧ (s.station n).state.out = false then
        [{ station := n, available := false }] else []) took
    have shows {α : Type} (field : Station → α) := congrArg field station
    refine ⟨shows Station.state, shows Station.locks, shows Station.effective, shows Station.timer,
      shows Station.tripCause, shows Station.request, shows Station.target, feeders, reports.trans (congrArg _ ?_), records,
      others, replied, completed, only⟩
    exact if_congr (and_congr_right fun _ => by rw [← Bool.not_eq_true, LifeState.out_iff]) rfl rfl
  · have before : (s.delivered.station n).locks = { operator := true, localSwitch := false } := hlocks
    have cause : s.delivered.operatorLock n (s.arg 1 == 1) =
        s.delivered.changeLocks n 0 false { operator := false, localSwitch := false } := by
      unfold State.operatorLock
      rw [harg, before]
      rfl
    obtain ⟨effective, request, target, hqueued, hout⟩ :=
      (s.delivered.station n).lockLifted_keeps (s.delivered.static n).dwell
    obtain ⟨b, w, moved, took⟩ := s.delivered.moveStation_leaves n
      (d := (s.delivered.station n).lockLifted (s.delivered.static n).dwell) hqueued
      [lockRecord s.delivered n 0 false { operator := false, localSwitch := false }]
    rw [lockRecord_eq _ _ (by decide)] at took
    rw [availabilityChange_to_service hout] at moved
    have lifted : s.delivered.changeLocks n 0 false { operator := false, localSwitch := false } = _ :=
      (State.changeLocks_of_last (by rw [before]; rfl) rfl).trans moved
    rw [cause, lifted]
    obtain ⟨station, feeders, reports, records, others, replied, completed, only⟩ := answered_wordLeaves s 3 .done n
      { (s.station n).lockLifted (s.static n).dwell with entered := true, writeBackPending := b }
      (s.delivered.feederLeft n)
      (if (s.feeder (s.feederNo n)).supply = .present ∧ (s.station n).state.out = true then
        [{ station := n, available := true }] else []) took
    have shows {α : Type} (field : Station → α) := congrArg field station
    refine ⟨shows Station.locks, (shows Station.effective).trans effective, (shows Station.request).trans request,
      (shows Station.target).trans target, fun hstopped => ?_, fun hmoving => ?_, feeders, reports.trans (congrArg _ ?_),
      records, others, replied, completed, only⟩
    · have dwells := (s.station n).unlocked_of_stopped hstopped (s.static n).dwell
      exact ⟨(shows Station.state).trans (congrArg Station.state dwells),
        (shows Station.timer).trans (congrArg Station.timer dwells)⟩
    · have stops := (s.station n).unlocked_of_moving hmoving (s.static n).dwell
      exact ⟨(shows Station.state).trans (congrArg Station.state stops),
        (shows Station.timer).trans (congrArg Station.timer stops),
        (shows Station.stopFlag).trans (congrArg Station.stopFlag stops)⟩
    · exact if_congr (and_congr_right fun _ => LifeState.out_iff _) rfl rfl
  · have before : (s.delivered.station n).locks = { operator := decide (s.arg 1 = 0), localSwitch := true } := hlocks
    have asked : (s.arg 1 == 1) = decide (s.arg 1 = 1) := rfl
    have cause : s.delivered.operatorLock n (s.arg 1 == 1) =
        s.delivered.changeLocks n 0 (decide (s.arg 1 = 1)) { operator := decide (s.arg 1 = 1), localSwitch := true } := by
      have differs : decide (s.arg 1 = 0) ≠ decide (s.arg 1 = 1) := by
        rw [ne_eq, decide_eq_decide]
        omega
      unfold State.operatorLock
      rw [before, asked]
      exact if_neg differs
    have detail : 0 + (if decide (s.arg 1 = 1) = true then 2 else 0) + (if decide (s.arg 1 = 1) = true then 16 else 0)
        + (if true = true then 32 else 0) = if s.arg 1 = 1 then 2 + 16 + 32 else 32 := by
      simp only [decide_eq_true_eq]
      split <;> rfl
    rw [cause, State.changeLocks_of_local (by rw [before]) rfl, lockRecord_eq _ _ (by decide), detail]
    exact answered_wordLeaves s 3 .done n
      { s.station n with locks := { operator := decide (s.arg 1 = 1), localSwitch := true } } (s.feeder (s.feederNo n)) []
      (s.writer.tookRecords_handAll _)

end Sys2Proof.Machine
end

section
/-! PROOF. The checks of an INCIDENT request, and the snapshot taken (O29, O36). -/

namespace Sys2Proof.Machine

open Sys2Proof

/-! ### INCIDENT (R102) -/

/-- The command of an INCIDENT action. -/
def isActionOf (c : Instr) (action : Nat) : Prop :=
  (c = .declare ∧ action = 1) ∨ (c = .replan ∧ action = 2) ∨ (c = .release ∧ action = 3)

theorem State.isIncident_iff (s : State) (action : Nat) : s.isIncident action 1 = true ↔
    s.arg 0 = action ∨ s.arg 0 = 0 ∨ 3 < s.arg 0 := by
  unfold State.isIncident unknownAction
  simp [kindIncident]

theorem State.incident_of_request {s : State} {c : Instr} {action : Nat} (h : s.requestInFlight 1) (hc : isActionOf c action)
    (haction : s.arg 0 = action ∨ s.arg 0 = 0 ∨ 3 < s.arg 0) : exec c s =
      .next (answered 1 (s.delivered.takeIncident (s.arg 0) (s.arg 1) (s.arg 2) (s.arg 3))) := by
  have taken : s.incidentRequest action = answered 1 (s.finish.takeIncident (s.finish.arg 0) (s.finish.arg 1)
      (s.finish.arg 2) (s.finish.arg 3)) := State.request_of h ((s.isIncident_iff action).mpr haction) _
  simp only [State.arg_finish] at taken
  rw [s.finish_eq] at taken
  rw [← State.delivered] at taken
  rw [← taken]
  obtain ⟨rfl, rfl⟩ | ⟨rfl, rfl⟩ | ⟨rfl, rfl⟩ := hc <;> rfl

section checks

variable {s : State} {action number segment flow : Nat}

theorem unknownAction_iff (action : Nat) : unknownAction action = true ↔ action = 0 ∨ 3 < action := by
  unfold unknownAction
  simp

theorem checkNumber_eq_badArg (h : action = 0 ∨ 3 < action ∨ number = 0 ∨ 32767 < number) :
    checkNumber action number = some .badArg := by
  unfold checkNumber
  split
  · rfl
  · next hknown =>
    rw [unknownAction_iff] at hknown
    exact if_pos (by omega)

theorem checkNumber_eq_none (h : 1 ≤ action) (h3 : action ≤ 3) (hnumber : 1 ≤ number) (hmax : number ≤ 32767) :
    checkNumber action number = none := by
  unfold checkNumber
  rw [if_neg (by rw [unknownAction_iff]; omega), if_neg (by omega)]

theorem State.takeIncident_of_number (h : checkNumber action number = some .badArg) :
    s.takeIncident action number segment flow = (s, .refused .badArg) := by
  unfold State.takeIncident checked
  rw [h]

theorem State.takeIncident_of_release (h : checkNumber 3 number = none) :
    s.takeIncident 3 number segment flow = s.takeRelease number := by
  unfold State.takeIncident checked
  rw [h]
  rfl

theorem State.takeIncident_of_place (haction : action = 1 ∨ action = 2) (h : checkNumber action number = none) :
    s.takeIncident action number segment flow = checked s (checkPlace (Setup.segmentCount s.copy) segment flow)
      (if action = 1 then s.takeDeclare number segment (flowOf flow) else s.takeReplan number segment (flowOf flow)) := by
  unfold State.takeIncident
  rw [h]
  exact if_neg (by unfold actionRelease; omega)

theorem checkPlace_of_segment {count : Nat} (h : count ≤ segment) : checkPlace count segment flow = some .badSegment := if_pos h

theorem checkPlace_of_flow {count : Nat} (h : segment < count) (hflow : 1 < flow) :
    checkPlace count segment flow = some .badArg := (if_neg (Nat.not_le.mpr h)).trans (if_pos hflow)

theorem checkPlace_of_good {count : Nat} (h : segment < count) (hflow : flow ≤ 1) : checkPlace count segment flow = none :=
  (if_neg (Nat.not_le.mpr h)).trans (if_neg (Nat.not_lt.mpr hflow))

theorem State.takeIncident_of_badPlace {r : Reason} (haction : action = 1 ∨ action = 2)
    (h : checkNumber action number = none) (hplace : checkPlace (Setup.segmentCount s.copy) segment flow = some r) :
    s.takeIncident action number segment flow = (s, .refused r) := by
  rw [State.takeIncident_of_place haction h, hplace]
  rfl

theorem State.takeIncident_of_declare (h : checkNumber 1 number = none) (hsegment : segment < Setup.segmentCount s.copy)
    (hflow : flow ≤ 1) : s.takeIncident 1 number segment flow = s.takeDeclare number segment (flowOf flow) := by
  rw [State.takeIncident_of_place (.inl rfl) h, checkPlace_of_good hsegment hflow]
  rfl

theorem State.takeIncident_of_replan (h : checkNumber 2 number = none) (hsegment : segment < Setup.segmentCount s.copy)
    (hflow : flow ≤ 1) : s.takeIncident 2 number segment flow = s.takeReplan number segment (flowOf flow) := by
  rw [State.takeIncident_of_place (.inr rfl) h, checkPlace_of_good hsegment hflow]
  rfl

variable {i : Incident} {dir : Dir}

theorem State.takeDeclare_of_declared (h : s.incident = some i) (horigin : i.origin = .declared) :
    s.takeDeclare number segment dir = (s, .refused .busy) := by
  unfold State.takeDeclare
  rw [h]
  dsimp only
  rw [horigin]

theorem State.takeReplan_of_none (h : s.incident = none) : s.takeReplan number segment dir = (s, .refused .noIncident) := by
  unfold State.takeReplan
  rw [h]

theorem State.takeReplan_of_other (h : s.incident = some i) (hnumber : i.number ≠ number) :
    s.takeReplan number segment dir = (s, .refused .wrongNumber) := by
  unfold State.takeReplan
  rw [h]
  exact if_neg hnumber

theorem State.takeRelease_of_none (h : s.incident = none) : s.takeRelease number = (s, .refused .noIncident) := by
  unfold State.takeRelease
  rw [h]

theorem State.takeRelease_of_other (h : s.incident = some i) (hnumber : i.number ≠ number) :
    s.takeRelease number = (s, .refused .wrongNumber) := by
  unfold State.takeRelease
  rw [h]
  exact if_neg hnumber

end checks

/-- Settles O29: the checks in their order. -/
theorem incidentRequestsAreChecked : Obligations.IncidentRequestsAreChecked := by
  intro s hrequest
  have refuses {c : Instr} {a : Nat} {r : Reason} (hc : isActionOf c a) (ha : s.arg 0 = a ∨ s.arg 0 = 0 ∨ 3 < s.arg 0)
      (h : s.delivered.takeIncident (s.arg 0) (s.arg 1) (s.arg 2) (s.arg 3) = (s.delivered, .refused r)) :
      Completes c s (fun t => RefusedOnly s t 1 r) :=
    ⟨_, State.incident_of_request hrequest hc ha, by rw [h]; exact refused_only s 1 r⟩
  refine ⟨fun hunknown c hc => ?unknown, fun c hc => ⟨fun hnumber => ?number, fun hmin hmax => ⟨fun hplace hsegment => ?segment,
    fun hplace hsegment hflow => ?flow, fun hgood => ?good⟩⟩⟩
  case unknown =>
    have bad : s.delivered.takeIncident (s.arg 0) (s.arg 1) (s.arg 2) (s.arg 3) = (s.delivered, .refused .badArg) :=
      State.takeIncident_of_number (checkNumber_eq_badArg (by omega))
    obtain hc | hc | hc := hc
    · exact refuses (.inl ⟨hc, rfl⟩) (.inr hunknown) bad
    · exact refuses (.inr (.inl ⟨hc, rfl⟩)) (.inr hunknown) bad
    · exact refuses (.inr (.inr ⟨hc, rfl⟩)) (.inr hunknown) bad
  case number =>
    exact refuses hc (.inl rfl) (State.takeIncident_of_number (checkNumber_eq_badArg (by omega)))
  all_goals
    have number : checkNumber (s.arg 0) (s.arg 1) = none := checkNumber_eq_none (by omega) (by omega) hmin hmax
  case segment =>
    exact refuses hc (.inl rfl) (State.takeIncident_of_badPlace (by tauto) number (checkPlace_of_segment hsegment))
  case flow =>
    exact refuses hc (.inl rfl) (State.takeIncident_of_badPlace (by tauto) number (checkPlace_of_flow hsegment hflow))
  case good =>
    obtain ⟨rfl, ha⟩ | ⟨rfl, ha⟩ | ⟨rfl, ha⟩ := hc <;> rw [ha] at number
    · obtain ⟨hsegment, hflow⟩ := hgood.resolve_left nofun
      have taken : s.delivered.takeIncident (s.arg 0) (s.arg 1) (s.arg 2) (s.arg 3)
          = s.delivered.takeDeclare (s.arg 1) (s.arg 2) (flowOf (s.arg 3)) := by
        rw [ha]
        exact State.takeIncident_of_declare number hsegment hflow
      exact ⟨fun h => absurd rfl h, fun _ h => absurd rfl h, fun i _ hi horigin =>
        refuses (.inl ⟨rfl, rfl⟩) (.inl ha) (taken.trans (State.takeDeclare_of_declared (s := s.delivered) hi horigin))⟩
    · obtain ⟨hsegment, hflow⟩ := hgood.resolve_left nofun
      have taken : s.delivered.takeIncident (s.arg 0) (s.arg 1) (s.arg 2) (s.arg 3)
          = s.delivered.takeReplan (s.arg 1) (s.arg 2) (flowOf (s.arg 3)) := by
        rw [ha]
        exact State.takeIncident_of_replan number hsegment hflow
      have refusal {r : Reason} (h : s.delivered.takeReplan (s.arg 1) (s.arg 2) (flowOf (s.arg 3)) =
          (s.delivered, .refused r)) := refuses (.inr (.inl ⟨rfl, rfl⟩)) (.inl ha) (taken.trans h)
      exact ⟨fun _ hi => refusal (State.takeReplan_of_none (s := s.delivered) hi),
        fun i _ hi hother => refusal (State.takeReplan_of_other (s := s.delivered) hi hother), nofun⟩
    · have taken : s.delivered.takeIncident (s.arg 0) (s.arg 1) (s.arg 2) (s.arg 3)
          = s.delivered.takeRelease (s.arg 1) := by
        rw [ha]
        exact State.takeIncident_of_release number
      have refusal {r : Reason} (h : s.delivered.takeRelease (s.arg 1) = (s.delivered, .refused r)) :=
        refuses (.inr (.inr ⟨rfl, rfl⟩)) (.inl ha) (taken.trans h)
      exact ⟨fun _ hi => refusal (State.takeRelease_of_none (s := s.delivered) hi),
        fun i _ hi hother => refusal (State.takeRelease_of_other (s := s.delivered) hi hother), nofun⟩

/-! ### SNAPSHOT (R194) -/

theorem State.snapshot_of_request {s : State} (h : s.requestInFlight 5) :
    exec .snapshot s = .next (s.delivered.snapshotAnswered 5) := by
  have taken : s.snapshotRequest = s.finish.snapshotAnswered 5 := State.request_of h rfl _
  rw [s.finish_eq] at taken
  exact congrArg Host.Outcome.next taken

theorem Freshness.code_lt (x : Freshness) : x.code < 2 ^ 2 := by cases x <;> decide

theorem placed_bitOf (lo : Nat) (b : Bool) : placed lo 1 (bitOf b) = if b = true then 2 ^ lo else 0 := by
  cases b
  · exact Nat.zero_mul _
  · exact Nat.one_mul _

theorem slotSource_eq (s : State) (n : StationNo) : slotSource s n = BitVec.ofNat 32
    ((s.source (stationSource n)).freshness.code + 256 * ((s.source (stationSource n)).staleCount % 256)
      + 65536 * ((s.source (stationSource n)).lastInterval % 65536)) := by
  unfold slotSource
  dsimp only
  rw [placed_of_lt (Freshness.code_lt _), placed_eq, placed_eq, Nat.pow_zero, Nat.one_mul]
  rfl

theorem slotInterval_eq (s : State) (n : StationNo) :
    slotInterval s n = BitVec.ofNat 32 ((s.source (stationSource n)).maxInterval % 65536) := by
  unfold slotInterval
  rw [placed_eq, Nat.pow_zero, Nat.one_mul]
  rfl

theorem timerField_eq (t : Timer) : timerField t = t.getD 65535 := by cases t <;> rfl

theorem Station.requested_eq (d : Station) : d.requested = match d.target with
    | none => d.request
    | some z => { dir := z.dir, speed := if z.role = .holdOff then .off else z.speed } := by
  unfold Station.requested
  cases d.target with
  | none => rfl
  | some z => dsimp only; cases z.role <;> rfl

theorem slotCommands_eq (s : State) (n : StationNo) : slotCommands s n = BitVec.ofNat 32
    (if s.present n = true then
      speedCode (s.station n).requested.speed + 4 * dirCode (s.station n).requested.dir
        + 256 * (speedCode (s.station n).effective.speed + 4 * dirCode (s.station n).effective.dir)
        + 65536 * ((s.station n).timer.getD 65535 % 65536)
    else 65536 * 65535) := by
  have codes : ∀ c : FanCommand, speedCode c.speed + 4 * dirCode c.dir < 2 ^ 3 := fun c => by
    have speed := speedCode_lt c.speed
    have dir := dirCode_lt c.dir
    omega
  unfold slotCommands State.shownStation
  split
  · dsimp only
    rw [fanCode_eq, fanCode_eq, placed_of_lt (codes _), placed_eq, timerField_eq]
    rfl
  · rfl

theorem Authority.code_eq (d : Station) : d.authority.code = bitOf d.target.isSome := by
  unfold Station.authority
  cases d.target <;> rfl

theorem slotIdentity_eq (s : State) (n : StationNo) : slotIdentity s n = BitVec.ofNat 32 (n.val +
    if s.present n = true then
      64 + 256 * ((s.static n).segment % 32) + 65536 * (s.station n).state.code
        + (if (s.station n).target.isSome = true then 2 ^ 20 else 0) + 2 ^ 24 * tripCauseCode (s.station n).tripCause
        + (if (s.station n).locks.operator = true then 2 ^ 28 else 0)
        + (if (s.station n).locks.localSwitch = true then 2 ^ 29 else 0)
        + (if (s.station n).stopFlag = true then 2 ^ 30 else 0)
    else 0) := by
  have number : placed 0 6 n.val = n.val := by rw [placed_of_lt n.isLt, Nat.pow_zero, Nat.one_mul]
  unfold slotIdentity State.shownStation State.shownSegment
  dsimp only
  rw [number]
  by_cases hpresent : s.present n = true
  · simp only [if_pos hpresent]
    rw [hpresent, Authority.code_eq]
    simp only [placed_bitOf]
    rw [placed_eq, placed_of_lt (LifeState.code_lt _), placed_of_lt (tripCauseCode_lt _)]
    refine congrArg _ ?_
    simp only [if_true]
    omega
  · simp only [if_neg hpresent]
    rw [Bool.not_eq_true] at hpresent
    rw [hpresent]
    rfl

theorem maskSelects_eq (low high : Word) :
    maskSelects low high = fun n => if n.val < 32 then low.getLsbD n.val else high.getLsbD (n.val - 32) := rfl

theorem State.snapshotAnswered_of_refused {s : State} {r : Reason}
    (h : s.takeSnapshot (s.args.nth 0) (s.args.nth 1) = (s, .refused r)) (kind : Nat) :
    s.snapshotAnswered kind = answered kind (s, .refused r) := by
  unfold State.snapshotAnswered
  rw [h]
  rfl

theorem State.takeSnapshot_of_taken {s : State} {low high : Word} (hidle : s.writer.snapshot = none)
    (hmask : low ≠ 0 ∨ high ≠ 0) : s.takeSnapshot low high = ({ s with
      writer := { s.writer with snapshot := some (snapshotOf s low high), ordinal := s.writer.ordinal + 1 } }, .accepted) := by
  unfold State.takeSnapshot
  rw [hidle, if_neg (by nofun), if_neg (by tauto)]

/-- Settles O36: the checks in their order, and the snapshot slot by slot. -/
theorem snapshotIsTaken : Obligations.SnapshotIsTaken := by
  intro s hrequest
  have run := State.snapshot_of_request hrequest
  refine ⟨fun hbusy => ⟨_, run, ?_⟩, fun hidle hlow hhigh => ⟨_, run, ?_⟩, fun hidle hmask => ⟨_, run, ?_⟩⟩
  · rw [State.snapshotAnswered_of_refused (s := s.delivered) (if_pos hbusy)]
    exact refused_only s 5 _
  · have idle : ¬s.writer.snapshot.isSome = true := by rw [hidle]; nofun
    rw [State.snapshotAnswered_of_refused (s := s.delivered) ((if_neg idle).trans (if_pos ⟨hlow, hhigh⟩))]
    exact refused_only s 5 _
  · have accepted := State.takeSnapshot_of_taken (s := s.delivered) hidle hmask
    unfold State.snapshotAnswered
    rw [show s.delivered.takeSnapshot (s.delivered.args.nth 0) (s.delivered.args.nth 1) = _ from accepted]
    refine ⟨Completed.of_finish rfl rfl, ?_, snapshotOf s.delivered _ _, rfl, rfl, rfl, rfl, rfl, ?_, fun y hy => ?_⟩
    · rw [if_pos rfl]
      unfold answered State.reply ImageWriter.append
      dsimp only
      rw [List.append_assoc]
      rfl
    · unfold snapshotOf
      dsimp only
      rw [List.map_map, maskSelects_eq]
      exact List.map_id _
    · obtain ⟨n, -, rfl⟩ := List.mem_map.mp hy
      intro d source flag requested command
      have asks : (s.station n).requested = requested := (s.station n).requested_eq
      show [slotIdentity s.delivered n, slotCommands s.delivered n, slotSource s.delivered n, slotInterval s.delivered n] = _
      rw [slotIdentity_eq, slotCommands_eq, slotSource_eq, slotInterval_eq, show (s.delivered.station n).requested = _ from asks]
      rfl

end Sys2Proof.Machine
end

section
/-! PROOF. The close: its checks entry by entry, and what it takes (O40). -/

namespace Sys2Proof.Machine

open Sys2Proof

theorem eq_decide_of_iff {b : Bool} {p : Prop} [Decidable p] (h : b = true ↔ p) : b = decide p :=
  Bool.eq_iff_iff.mpr (h.trans decide_eq_true_iff.symm)

theorem within_iff (lo hi n : Nat) : within lo hi n = true ↔ lo ≤ n ∧ n ≤ hi := by
  unfold within
  rw [Bool.and_eq_true, decide_eq_true_iff, decide_eq_true_iff]

/-! ### The first fault (R179) -/

theorem Setup.firstAtFault_of_good {l : List (Nat × Bool)} (h : ∀ y ∈ l, y.2 = true) : Setup.firstAtFault l = none := by
  have none : l.find? (fun x => !x.2) = none := List.find?_eq_none.mpr fun y hy => by rw [h y hy]; nofun
  unfold Setup.firstAtFault
  rw [none]
  rfl

theorem Setup.firstAtFault_of_bad {good bad : List (Nat × Bool)} {k : Nat} (h : ∀ y ∈ good, y.2 = true) :
    Setup.firstAtFault (good ++ (k, false) :: bad) = some k := by
  have none : good.find? (fun x => !x.2) = none := List.find?_eq_none.mpr fun y hy => by rw [h y hy]; nofun
  unfold Setup.firstAtFault
  rw [List.find?_append, none]
  rfl

/-- A check without a fault passes on to the next one. -/
theorem Setup.firstFault_cons_of_good {x : SetupCode × List (Nat × Bool)} {l : List (SetupCode × List (Nat × Bool))}
    (h : ∀ y ∈ x.2, y.2 = true) : Setup.firstFault (x :: l) = Setup.firstFault l := by
  obtain ⟨code, entries⟩ := x
  unfold Setup.firstFault
  rw [Setup.firstAtFault_of_good h]
  cases l <;> rfl

theorem Setup.firstFault_of_good {l : List (SetupCode × List (Nat × Bool))} (h : ∀ x ∈ l, ∀ y ∈ x.2, y.2 = true) :
    Setup.firstFault l = none := by
  induction l with
  | nil => rfl
  | cons x l ih =>
    rw [Setup.firstFault_cons_of_good (h x List.mem_cons_self)]
    exact ih fun z hz => h z (List.mem_cons_of_mem _ hz)

theorem Setup.firstFault_of_bad {before after : List (SetupCode × List (Nat × Bool))} {code : SetupCode}
    {good bad : List (Nat × Bool)} {k : Nat} (h : ∀ x ∈ before, ∀ y ∈ x.2, y.2 = true) (hgood : ∀ y ∈ good, y.2 = true) :
    Setup.firstFault (before ++ (code, good ++ (k, false) :: bad) :: after) = some (code, k) := by
  induction before with
  | nil =>
    rw [List.nil_append, Setup.firstFault, Setup.firstAtFault_of_bad hgood]
  | cons x l ih =>
    rw [List.cons_append, Setup.firstFault_cons_of_good (h x List.mem_cons_self)]
    exact ih fun z hz => h z (List.mem_cons_of_mem _ hz)

/-! ### The windows (checks 3 and 10) -/

/-- The code of a window kind (12.6). -/
def windowCode : WindowKind → Nat
  | .command => 1
  | .feedback => 2
  | .mailbox => 3
  | .report => 4
  | .snapshot => 5
  | .guarded => 6

theorem Setup.windowKindOf_eq_none (n : Nat) : Setup.windowKindOf n = none ↔ ¬(1 ≤ n ∧ n ≤ 6) := by
  unfold Setup.windowKindOf
  split
  case h_7 _ h1 h2 h3 h4 h5 h6 => exact iff_of_true rfl fun ⟨_, _⟩ => by interval_cases n <;> contradiction
  all_goals exact iff_of_false nofun (by decide)

theorem Setup.windowKindOf_eq_some (n : Nat) (k : WindowKind) : Setup.windowKindOf n = some k ↔ n = windowCode k := by
  unfold Setup.windowKindOf
  split
  case h_7 _ h1 h2 h3 h4 h5 h6 =>
    refine iff_of_false nofun fun h => ?_
    cases k <;> contradiction
  all_goals cases k <;> decide

theorem Setup.windowFields_kind (c : Cells Word) (i : Nat) :
    (Setup.windowFields c i).kind = Setup.windowKindOf (bits (Setup.word c (18 + 4 * i)) 7 0) := rfl

theorem Setup.standsBeside_iff (x y : Window) : Setup.standsBeside x y = true ↔
    (y.base + y.size ≤ x.base ∨ x.base + x.size ≤ y.base) ∧ (x.kind = some .guarded ∨ y.kind ≠ x.kind) := by
  unfold Setup.standsBeside Setup.overlap
  rw [Bool.and_eq_true, Bool.or_eq_true, Bool.not_eq_true', Bool.and_eq_false_iff, decide_eq_false_iff_not,
    decide_eq_false_iff_not, Nat.not_lt, Nat.not_lt, beq_iff_eq, bne_iff_ne, ne_comm]

theorem Setup.goodWindow_iff (x : Window) (lower : List Window) (k : WindowKind) (hk : x.kind = some k) :
    Setup.goodWindow x lower = true ↔ 64 ≤ x.size ∧ 2 ^ Nat.log2 x.size = x.size ∧ x.base % x.size = 0
      ∧ x.base + x.size ≤ 0xFC000 ∧ (∀ y ∈ lower, Setup.standsBeside x y = true) ∧ Setup.leastSize k ≤ x.size := by
  unfold Setup.goodWindow Setup.goodSize
  rw [hk]
  simp only [Bool.and_eq_true, decide_eq_true_eq, List.all_eq_true, and_assoc]

theorem Setup.leastSize_iff {k : WindowKind} {size : Nat} (h : 64 ≤ size) : Setup.leastSize k ≤ size ↔
    (windowCode k = 1 → 256 ≤ size) ∧ (windowCode k = 2 → 512 ≤ size) ∧ (windowCode k = 5 → 2048 ≤ size) := by
  cases k <;> simp [windowCode, Setup.leastSize, h]

/-- What check 3 asks of a window, by its fields. -/
theorem Setup.goodWindow_fields (c : Cells Word) (i : Nat) :
    let base := fun i => bits (Setup.word c (16 + 4 * i)) 31 0
    let size := fun i => bits (Setup.word c (17 + 4 * i)) 31 0
    let kind := fun i => bits (Setup.word c (18 + 4 * i)) 7 0
    Setup.goodWindow (Setup.windowFields c i) ((List.range i).map (Setup.windowFields c)) = true ↔
      (1 ≤ kind i ∧ kind i ≤ 6) ∧ 64 ≤ size i ∧ 2 ^ Nat.log2 (size i) = size i ∧ base i % size i = 0
        ∧ base i + size i ≤ 0xFC000
        ∧ (∀ j, j < i → (base j + size j ≤ base i ∨ base i + size i ≤ base j) ∧ (kind i = 6 ∨ kind j ≠ kind i))
        ∧ (kind i = 1 → 256 ≤ size i) ∧ (kind i = 2 → 512 ≤ size i) ∧ (kind i = 5 → 2048 ≤ size i) := by
  intro base size kind
  have kindOf : ∀ j, (Setup.windowFields c j).kind = Setup.windowKindOf (kind j) := Setup.windowFields_kind c
  cases hk : Setup.windowKindOf (kind i) with
  | none =>
    refine iff_of_false ?_ fun h => (Setup.windowKindOf_eq_none _).mp hk h.1
    unfold Setup.goodWindow
    rw [kindOf, hk]
    nofun
  | some k =>
    have code : kind i = windowCode k := (Setup.windowKindOf_eq_some _ _).mp hk
    have range : 1 ≤ kind i ∧ kind i ≤ 6 := by
      by_contra h
      rw [(Setup.windowKindOf_eq_none _).mpr h] at hk
      cases hk
    have beside : (∀ y ∈ (List.range i).map (Setup.windowFields c), Setup.standsBeside (Setup.windowFields c i) y = true) ↔
        ∀ j, j < i → (base j + size j ≤ base i ∨ base i + size i ≤ base j) ∧ (kind i = 6 ∨ kind j ≠ kind i) := by
      simp only [List.forall_mem_map, List.mem_range, Setup.standsBeside_iff, kindOf, hk, ne_eq, Setup.windowKindOf_eq_some,
        ← code, Option.some.injEq]
      refine forall₂_congr fun j _ => and_congr_right fun _ => or_congr_left ?_
      rw [code]
      cases k <;> decide
    rw [Setup.goodWindow_iff _ _ k ((kindOf i).trans hk), beside, and_iff_right range]
    refine and_congr_right fun hsize => ?_
    rw [Setup.leastSize_iff hsize, ← code]
    rfl

theorem Setup.windowOf_isSome (c : Cells Word) (k : WindowKind) : (Setup.windowOf c k).isSome = true ↔
    ∃ i ∈ List.range (Setup.windowCount c), bits (Setup.word c (18 + 4 * i)) 7 0 = windowCode k := by
  have table : Setup.window c = Setup.windowFields c := funext (Setup.window_eq_fields c)
  unfold Setup.windowOf Setup.windows
  rw [List.find?_isSome, table]
  simp only [List.mem_map, exists_exists_and_eq_and, beq_iff_eq, Setup.windowFields_kind, Setup.windowKindOf_eq_some]

theorem Setup.required_iff (c : Cells Word) :
    [WindowKind.command, .feedback, .mailbox, .report, .snapshot].all (fun k => (Setup.windowOf c k).isSome) = true ↔
      ∀ k ∈ List.range 5, ∃ i ∈ List.range (Setup.windowCount c), bits (Setup.word c (18 + 4 * i)) 7 0 = k + 1 := by
  have five : ∀ P : Nat → Prop, (∀ k ∈ List.range 5, P k) ↔ P 0 ∧ P 1 ∧ P 2 ∧ P 3 ∧ P 4 := fun P => by
    simp [List.range_succ]
  rw [five, List.all_eq_true]
  simp only [List.forall_mem_cons, Setup.windowOf_isSome, windowCode]
  simp

/-! ### Stations, feeders, plans and the pool (checks 4 to 9) -/

/-- A station number of the copy names a present station. -/
theorem Setup.presentStation_iff (c : Cells Word) (n : Nat) : Setup.presentStation c n = true ↔
    n < 64 ∧ bits (Setup.word c (256 + 4 * n)) 0 0 = 1 := by
  unfold Setup.presentStation
  rw [Bool.and_eq_true, decide_eq_true_iff, Setup.station_present_iff]

/-- The present stations, by number. -/
theorem Setup.map_presentStations {α : Type} (c : Cells Word) (g : Nat → α) :
    (Setup.presentStations c).map (fun n => g n.val) =
      ((List.range 64).filter (fun n => decide (n < 64 ∧ bits (Setup.word c (256 + 4 * n)) 0 0 = 1))).map g := by
  have numbers : allStations.map Fin.val = List.range 64 := List.map_coe_finRange_eq_range
  rw [← numbers, List.filter_map, List.map_map]
  refine congrArg _ (List.filter_congr fun n _ => eq_decide_of_iff ?_)
  rw [Setup.station_present_iff]
  exact (and_iff_right n.isLt).symm

theorem Setup.goodStation_iff (c : Cells Word) (n : StationNo) :
    let f := fun k hi lo => bits (Setup.word c k) hi lo
    let present := fun n => n < 64 ∧ f (256 + 4 * n) 0 0 = 1
    let leader := fun n => f (257 + 4 * n) 7 0
    Setup.goodStation c n = true ↔ f (256 + 4 * n.val) 15 8 < Setup.feederCount c
      ∧ f (256 + 4 * n.val) 23 16 < Setup.segmentCount c ∧ leader n ≤ n ∧ present (leader n) ∧ leader (leader n) = leader n
      ∧ (f (257 + 4 * n.val) 16 16 = 1 → present (f (257 + 4 * n.val) 15 8) ∧ f (257 + 4 * n.val) 15 8 ≠ n.val) := by
  intro f present leader
  unfold Setup.goodStation
  simp only [Setup.station_eq, Bool.and_eq_true, Bool.or_eq_true, decide_eq_true_eq, Setup.presentStation_iff,
    Bool.not_eq_true', decide_eq_false_iff_not, and_assoc, ← imp_iff_not_or, f, present, leader]

theorem Setup.goodPlan_iff (c : Cells Word) (p : Nat) :
    let f := fun k hi lo => bits (Setup.word c k) hi lo
    Setup.goodPlan c (p + 1) = true ↔ f (512 + 4 * p) 15 0 < Setup.poolCount c
      ∧ (1 ≤ f (512 + 4 * p) 31 16 ∧ f (512 + 4 * p) 31 16 ≤ 64)
      ∧ f (512 + 4 * p) 15 0 + f (512 + 4 * p) 31 16 ≤ Setup.poolCount c
      ∧ (1 ≤ f (513 + 4 * p) 7 0 ∧ f (513 + 4 * p) 7 0 ≤ 4)
      ∧ (∀ i, i < 4 → i < f (513 + 4 * p) 7 0 → f (514 + 4 * p) (8 * i + 7) (8 * i) < Setup.anemometerCount c)
      ∧ (50 ≤ f (513 + 4 * p) 31 16 ∧ f (513 + 4 * p) 31 16 ≤ 500)
      ∧ (50 ≤ f (515 + 4 * p) 15 0 ∧ f (515 + 4 * p) 15 0 ≤ 600)
      ∧ 300 ≤ f (515 + 4 * p) 31 16 ∧ f (515 + 4 * p) 31 16 ≤ 3000 := by
  intro f
  have second : 512 + 4 * p + 1 = 513 + 4 * p := by omega
  have third : 512 + 4 * p + 2 = 514 + 4 * p := by omega
  have fourth : 512 + 4 * p + 3 = 515 + 4 * p := by omega
  have watched := Setup.forall_watchList c (p + 1) (· < Setup.anemometerCount c)
  rw [Nat.add_sub_cancel, second, third] at watched
  unfold Setup.goodPlan
  simp only [Setup.plan, Setup.planOffset, Nat.add_sub_cancel, second, third, fourth, Bool.and_eq_true, decide_eq_true_eq,
    within_iff, List.all_eq_true, watched, and_assoc]
  rfl

theorem Setup.goodEntry_iff (c : Cells Word) (e : PoolEntry) : Setup.goodEntry c e = true ↔
    (1 ≤ e.role ∧ e.role ≤ 2) ∧ (1 ≤ e.tier ∧ e.tier ≤ 2) ∧ (e.role = 2 → e.tier = 1)
      ∧ (e.subject < 64 ∧ bits (Setup.word c (256 + 4 * e.subject)) 0 0 = 1)
      ∧ (e.role = 1 → 1 ≤ e.speed ∧ e.speed ≤ 2) := by
  unfold Setup.goodEntry
  simp only [Bool.and_eq_true, Bool.or_eq_true, beq_iff_eq, Setup.presentStation_iff]
  omega

/-! ### The close (R177, R180, R181) -/

theorem SetupCode.code_lt (x : SetupCode) : x.code < 2 ^ 8 := by cases x <;> decide

theorem toNat_resultWord (code : SetupCode) {count offset : Nat} (hcount : count < 256) (hoffset : offset < 65536) :
    (resultWord code count offset).toNat = code.code + 256 * count + 65536 * offset := by
  have hcode := code.code_lt
  unfold resultWord
  rw [placed_of_lt hcode, placed_of_lt (lo := 8) (width := 8) hcount, placed_of_lt (lo := 16) (width := 16) hoffset,
    BitVec.toNat_ofNat]
  omega

theorem Setup.closeFault_of_sum {c : Cells Word} {d : Word} (h : checksum c ≠ d) :
    Setup.closeFault c d = some (.badSum, 0) := if_neg h

theorem Setup.closeFault_of_checks {c : Cells Word} {d : Word} (h : checksum c = d) :
    Setup.closeFault c d = Setup.firstFault (Setup.checks c) := if_pos h

theorem State.close_of_flight {q : Requester} {a : Nat} {d : Word} {e : BitVec 4} {s : State} (hpart : s.part = .capture)
    (hflight : s.inFlight = some { requester := q, transfer := .write a d e, owner := .port .close }) :
    exec .close s = .next (s.delivered.closeTaken d) := by
  have taken : s.close = s.finish.closeTaken d := by
    unfold State.close
    rw [s.flightOwner_of hflight, s.flightData_of hflight]
    exact if_pos (s.finish_part.trans hpart)
  rw [s.finish_eq] at taken
  exact congrArg Host.Outcome.next taken

/-! ### The ten checks, each entry from its words of the copy (R179, 12.6) -/

section checks

variable (c : Cells Word)

theorem Setup.checkFormat_eq : Setup.checkFormat c = [(0, decide (bits (Setup.word c 0) 31 0 = 1))] := by
  unfold Setup.checkFormat Setup.format
  rw [← bits_all]
  rfl

theorem Setup.checkCounts_eq : Setup.checkCounts c =
    [ (1, decide ((1 ≤ Setup.segmentCount c ∧ Setup.segmentCount c ≤ 32)
        ∧ (1 ≤ Setup.feederCount c ∧ Setup.feederCount c ≤ 8)
        ∧ (0 ≤ Setup.anemometerCount c ∧ Setup.anemometerCount c ≤ 8)
        ∧ 5 ≤ Setup.windowCount c ∧ Setup.windowCount c ≤ 8)),
      (2, decide ((1 ≤ Setup.planCount c ∧ Setup.planCount c ≤ 64) ∧ 1 ≤ Setup.poolCount c ∧ Setup.poolCount c ≤ 1024)),
      (4, decide (Setup.basePriorityImage c ≤ 7 ∧ Setup.basePriorityScanner c ≤ 7 ∧ Setup.basePriorityControl c ≤ 7)) ] := by
  refine congrArg₂ (fun x y => (1, x) :: y) (eq_decide_of_iff ?_)
    (congrArg₂ (fun x y => [(2, x), (4, y)]) (eq_decide_of_iff ?_) (eq_decide_of_iff ?_))
  · simp only [Bool.and_eq_true, within_iff, and_assoc]
  · simp only [Bool.and_eq_true, within_iff]
  · simp only [Bool.and_eq_true, within_iff, Nat.zero_le, true_and, and_assoc]

theorem Setup.checkWindows_eq : Setup.checkWindows c =
    let base := fun i => bits (Setup.word c (16 + 4 * i)) 31 0
    let size := fun i => bits (Setup.word c (17 + 4 * i)) 31 0
    let kind := fun i => bits (Setup.word c (18 + 4 * i)) 7 0
    (List.range (Setup.windowCount c)).map (fun i => (16 + 4 * i, decide ((1 ≤ kind i ∧ kind i ≤ 6) ∧ 64 ≤ size i
        ∧ (2 ^ Nat.log2 (size i) = size i) ∧ base i % size i = 0 ∧ base i + size i ≤ 0xFC000
        ∧ (∀ j, j < i → (base j + size j ≤ base i ∨ base i + size i ≤ base j) ∧ (kind i = 6 ∨ kind j ≠ kind i))
        ∧ (kind i = 1 → 256 ≤ size i) ∧ (kind i = 2 → 512 ≤ size i) ∧ (kind i = 5 → 2048 ≤ size i))))
      ++ [(1, decide (∀ k ∈ List.range 5, ∃ i ∈ List.range (Setup.windowCount c), kind i = k + 1))] := by
  have table : Setup.window c = Setup.windowFields c := funext (Setup.window_eq_fields c)
  unfold Setup.checkWindows
  rw [table]
  exact congrArg₂ _ (List.map_congr_left fun i _ => congrArg (Prod.mk _) (eq_decide_of_iff (Setup.goodWindow_fields c i)))
    (congrArg (fun b => [(1, b)]) (eq_decide_of_iff (Setup.required_iff c)))

theorem Setup.checkReport_eq : Setup.checkReport c = (List.range (Setup.windowCount c)).map (fun i =>
    (16 + 4 * i, decide (bits (Setup.word c (18 + 4 * i)) 7 0 = 4 → 512 ≤ bits (Setup.word c (17 + 4 * i)) 31 0))) := by
  refine List.map_congr_left fun i _ => congrArg (Prod.mk _) (eq_decide_of_iff ?_)
  rw [Setup.window_eq_fields, Bool.or_eq_true, bne_iff_ne, decide_eq_true_iff, ← imp_iff_not_or, Setup.windowFields_kind,
    Setup.windowKindOf_eq_some]
  rfl

/-- The numbers of the present stations. -/
def Setup.stationNumbers (c : Cells Word) : List Nat :=
  (List.range 64).filter (fun n => decide (n < 64 ∧ bits (Setup.word c (256 + 4 * n)) 0 0 = 1))

theorem Setup.checkStations_eq : Setup.checkStations c =
    let f := fun k hi lo => bits (Setup.word c k) hi lo
    let present := fun n => n < 64 ∧ f (256 + 4 * n) 0 0 = 1
    let leader := fun n => f (257 + 4 * n) 7 0
    (Setup.stationNumbers c).map (fun n => (256 + 4 * n, decide (f (256 + 4 * n) 15 8 < Setup.feederCount c
      ∧ f (256 + 4 * n) 23 16 < Setup.segmentCount c ∧ leader n ≤ n ∧ present (leader n) ∧ leader (leader n) = leader n
      ∧ (f (257 + 4 * n) 16 16 = 1 → present (f (257 + 4 * n) 15 8) ∧ f (257 + 4 * n) 15 8 ≠ n)))) := by
  refine Eq.trans ?_ (Setup.map_presentStations c _)
  exact List.map_congr_left fun n _ => congrArg (Prod.mk _) (eq_decide_of_iff (Setup.goodStation_iff c n))

theorem Setup.checkFeeders_eq : Setup.checkFeeders c = (List.range (Setup.feederCount c)).map (fun i => (48 + 2 * i,
    decide ((1 ≤ bits (Setup.word c (48 + 2 * i)) 7 0 ∧ bits (Setup.word c (48 + 2 * i)) 7 0 ≤ 4)
      ∧ bits (Setup.word c (48 + 2 * i)) 31 16 ≤ 600 ∧ bits (Setup.word c (49 + 2 * i)) 15 0 ≤ 1200))) := by
  refine List.map_congr_left fun i _ => congrArg (Prod.mk _) (eq_decide_of_iff ?_)
  have second : 48 + 2 * i + 1 = 49 + 2 * i := by omega
  simp only [Setup.feeder, Setup.feederOffset, second, Bool.and_eq_true, within_iff, Nat.zero_le, true_and, and_assoc]

theorem Setup.checkTimes_eq : Setup.checkTimes c =
    let f := fun k hi lo => bits (Setup.word c k) hi lo
    let range := fun (lo hi n : Nat) => lo ≤ n ∧ n ≤ hi
    [ (5, decide (range 5 100 (f 5 15 0) ∧ range 5 100 (f 5 31 16))),
      (6, decide (range 5 100 (f 6 15 0) ∧ range 5 100 (f 6 31 16))),
      (7, decide (range 10 600 (f 7 15 0) ∧ range 10 600 (f 7 31 16))) ]
      ++ (Setup.stationNumbers c).map (fun n => (256 + 4 * n, decide (range 10 1200 (f (258 + 4 * n) 15 0)
        ∧ range 50 600 (f (258 + 4 * n) 31 16) ∧ range 50 1200 (f (259 + 4 * n) 15 0)))) := by
  have both : ∀ lo hi x y, (within lo hi x && within lo hi y) = decide ((lo ≤ x ∧ x ≤ hi) ∧ lo ≤ y ∧ y ≤ hi) :=
    fun lo hi x y => eq_decide_of_iff (by rw [Bool.and_eq_true, within_iff, within_iff])
  unfold Setup.checkTimes
  rw [both, both, both]
  refine congrArg _ (Eq.trans ?_ (Setup.map_presentStations c _))
  refine List.map_congr_left fun n _ => congrArg (Prod.mk _) (eq_decide_of_iff ?_)
  simp only [Setup.station_eq, Bool.and_eq_true, within_iff, and_assoc]

theorem Setup.checkIndex_eq : Setup.checkIndex c = (List.range (2 * Setup.segmentCount c)).map (fun i =>
    (104 + i, decide (1 ≤ bits (Setup.word c (104 + i)) 31 0 ∧ bits (Setup.word c (104 + i)) 31 0 ≤ Setup.planCount c))) := by
  refine List.map_congr_left fun i _ => congrArg (Prod.mk _) (eq_decide_of_iff ?_)
  rw [within_iff, ← bits_all]
  rfl

theorem Setup.checkPlans_eq : Setup.checkPlans c =
    let f := fun k hi lo => bits (Setup.word c k) hi lo
    let range := fun (lo hi n : Nat) => lo ≤ n ∧ n ≤ hi
    (List.range (Setup.planCount c)).map (fun p => (512 + 4 * p, decide (f (512 + 4 * p) 15 0 < Setup.poolCount c
      ∧ range 1 64 (f (512 + 4 * p) 31 16) ∧ f (512 + 4 * p) 15 0 + f (512 + 4 * p) 31 16 ≤ Setup.poolCount c
      ∧ range 1 4 (f (513 + 4 * p) 7 0)
      ∧ (∀ i, i < 4 → i < f (513 + 4 * p) 7 0 → f (514 + 4 * p) (8 * i + 7) (8 * i) < Setup.anemometerCount c)
      ∧ range 50 500 (f (513 + 4 * p) 31 16) ∧ range 50 600 (f (515 + 4 * p) 15 0)
      ∧ range 300 3000 (f (515 + 4 * p) 31 16)))) :=
  List.map_congr_left fun p _ => congrArg (Prod.mk _) (eq_decide_of_iff (Setup.goodPlan_iff c p))

theorem Setup.checkPool_eq : Setup.checkPool c =
    let f := fun k hi lo => bits (Setup.word c k) hi lo
    let present := fun n => n < 64 ∧ f (256 + 4 * n) 0 0 = 1
    let range := fun (lo hi n : Nat) => lo ≤ n ∧ n ≤ hi
    (List.range (Setup.poolCount c)).map (fun i => (1024 + i, decide (range 1 2 (f (1024 + i) 1 0)
      ∧ range 1 2 (f (1024 + i) 3 2) ∧ (f (1024 + i) 1 0 = 2 → f (1024 + i) 3 2 = 1)
      ∧ present (f (1024 + i) 23 16) ∧ (f (1024 + i) 1 0 = 1 → range 1 2 (f (1024 + i) 5 4))))) :=
  List.map_congr_left fun i _ => congrArg (Prod.mk _) (eq_decide_of_iff (Setup.goodEntry_iff c (Setup.pool c i)))

end checks

/-- Settles O40: the fault found decides the close, and each check is its entries in order. -/
theorem closeIsJudged : Obligations.CloseIsJudged := by
  refine ⟨?codes, fun c => rfl, ?close, fun before after code good bad k => Setup.firstFault_of_bad,
    fun l => Setup.firstFault_of_good, fun c => ?checks⟩
  case codes =>
    intro x hx count offset hcount hoffset
    rw [toNat_resultWord x.1 hcount hoffset]
    have code : x.1.code = x.2 := by
      revert x
      decide
    rw [code]
  case close =>
    intro q a d e s hpart hflight count sum fault
    have run := State.close_of_flight hpart hflight
    refine ⟨fun code offset hfault => ⟨_, run, ?_⟩, fun hsum hfault => ⟨_, run, ?_⟩⟩
    · have found : Setup.closeFault s.copy d = some (code, offset) := by
        obtain ⟨hsum, rfl, rfl⟩ | ⟨hsum, hfault⟩ := hfault
        · exact Setup.closeFault_of_sum hsum
        · exact (Setup.closeFault_of_checks hsum).trans hfault
      rw [State.closeTaken_of_fault s.delivered found]
      exact ⟨Completed.of_finish rfl rfl, rfl⟩
    · have passes : Setup.closeFault s.copy d = none := (Setup.closeFault_of_checks hsum).trans hfault
      rw [State.closeTaken_of_none s.delivered passes]
      exact ⟨Completed.of_finish rfl rfl, rfl⟩
  case checks =>
    intro f segments feeders anemometers windows plans entries base size kind present leader stations range
    unfold Setup.checks
    rw [Setup.checkFormat_eq, Setup.checkCounts_eq, Setup.checkWindows_eq, Setup.checkStations_eq, Setup.checkFeeders_eq,
      Setup.checkTimes_eq, Setup.checkIndex_eq, Setup.checkPlans_eq, Setup.checkPool_eq, Setup.checkReport_eq]
    rfl

end Sys2Proof.Machine
end

section
/-! PROOF. Targets presented to the stations: what each station keeps, and that no record is made (for O30-O32, O48,
O50, O51). -/

namespace Sys2Proof.Machine

open Sys2Proof

/-! ### Claims make no records -/

theorem State.noRecords_putStation (s : State) (n : StationNo) (d : Station) :
    s.writer.tookRecords (s.putStation n d).writer [] := by
  unfold State.putStation
  dsimp only
  split
  · exact s.writer.tookRecords_refl
  · exact s.writer.tookRecords_placeOnce _

theorem State.tookRecords_moveStation (s : State) (n : StationNo) (d : Station) (l : List ReportRecord) :
    s.writer.tookRecords (s.moveStation n d l).writer l :=
  ImageWriter.tookRecords_trans (s.noRecords_putStation n { d with entered := true })
    (ImageWriter.tookRecords_handAll (s.enterState n d).writer l)

theorem State.noRecords_runningChange (s : State) (n : StationNo) :
    s.writer.tookRecords (s.runningChange n).writer [] := by
  unfold State.runningChange
  dsimp only
  split
  · exact s.tookRecords_moveStation n _ []
  · split
    · exact s.noRecords_putStation n _
    · split
      · exact s.tookRecords_moveStation n _ []
      · exact s.writer.tookRecords_refl

theorem State.noRecords_queuedChange (s : State) (n : StationNo) :
    s.writer.tookRecords (s.queuedChange n).writer [] := by
  unfold State.queuedChange
  dsimp only
  split
  · split
    · exact s.tookRecords_moveStation n _ []
    · exact s.writer.tookRecords_refl
  · split
    · exact s.tookRecords_moveStation n _ []
    · split
      · exact s.writer.tookRecords_refl
      · exact s.tookRecords_moveStation n _ []

theorem State.noRecords_lifecycleChange (s : State) (n : StationNo) :
    s.writer.tookRecords (s.lifecycleChange n).writer [] := by
  unfold State.lifecycleChange
  split
  case h_1 =>
    split
    · exact s.writer.tookRecords_refl
    · exact s.tookRecords_moveStation n _ []
  case h_2 => exact s.noRecords_queuedChange n
  case h_3 =>
    split
    · exact s.tookRecords_moveStation n _ []
    · exact s.writer.tookRecords_refl
  case h_4 => exact s.noRecords_runningChange n
  all_goals exact s.writer.tookRecords_refl

theorem State.noRecords_setTarget (s : State) (n : StationNo) (x : Option PlanTarget) :
    s.writer.tookRecords (s.setTarget n x).writer [] := by
  unfold State.setTarget State.claim
  split
  · exact ImageWriter.tookRecords_trans (s.noRecords_putStation n _) (State.noRecords_lifecycleChange _ n)
  · exact s.noRecords_putStation n _

theorem State.noRecords_grant (s : State) (f : FeederNo) : s.writer.tookRecords (s.grant f).writer [] := by
  obtain same | ⟨e, rest, -, -, granted⟩ := s.grant_cases f
  · rw [same]
    exact s.writer.tookRecords_refl
  · rw [granted]
    exact State.noRecords_putStation (s.putFeeder f _) e.station _

/-! ### What a station keeps (R110, log 11) -/

theorem State.request_setTarget (s : State) (n m : StationNo) (x : Option PlanTarget) :
    ((s.setTarget n x).station m).request = (s.station m).request := by
  have kept : ((s.putStation n { s.station n with target := x }).station m).request = (s.station m).request := by
    rw [State.request_putStation]
    split
    · next h => rw [h]
    · rfl
  unfold State.setTarget State.claim
  split
  · rw [State.request_lifecycleChange, kept]
  · exact kept

/-- A station was started: what a grant leaves of its record. -/
def Station.startedAs (d d' : Station) : Prop := d' = { d with
  state := .starting, timer := none, entered := true, effective := d'.effective, writeBackPending := d'.writeBackPending }

theorem Station.startedAs.trans {d d' d'' : Station} (h : d.startedAs d') (h' : d'.startedAs d'') : d.startedAs d'' := by
  unfold Station.startedAs at *
  rw [h', h]

theorem State.station_grant_started (s : State) (f : FeederNo) (m : StationNo) :
    (s.grant f).station m = s.station m ∨ (s.station m).startedAs ((s.grant f).station m) := by
  obtain same | ⟨e, rest, -, -, granted⟩ := s.grant_cases f
  · rw [same]
    exact .inl rfl
  · rw [granted]
    by_cases hm : m = e.station
    · obtain ⟨pending, station⟩ := s.station_grantEntry_self f e rest
      rw [hm, station]
      exact .inr rfl
    · exact .inl (s.station_grantEntry_ne f rest hm)

/-- A station that waits for no target keeps its record, unless a grant among the turns starts it. -/
theorem State.station_presentInTurns (s : State) (turns : List Turn) (x : Targets) {m : StationNo}
    (h : (s.station m).target = x.nth m) : (s.presentInTurns turns x).station m = s.station m
      ∨ ((∃ f, .grant f ∈ turns) ∧ (s.station m).startedAs ((s.presentInTurns turns x).station m)) := by
  refine State.takeClaims_keeps_of_mem (P := fun t => t.station m = s.station m
    ∨ ((∃ f, .grant f ∈ turns) ∧ (s.station m).startedAs (t.station m))) (fun t n hn ht => ?_) (fun t f hf ht => ?_) false
    (.inl rfl)
  · have other : m ≠ n := fun heq => (s.mem_targetsDiffer x n).mp hn (heq ▸ h)
    rw [State.station_setTarget_ne _ _ other]
    exact ht
  · obtain same | started := t.station_grant_started f m
    · rwa [same]
    · refine .inr ⟨⟨f, hf⟩, ?_⟩
      obtain kept | ⟨-, before⟩ := ht
      · rwa [kept] at started
      · exact before.trans started

theorem State.request_presentInTurns (s : State) (turns : List Turn) (x : Targets) (m : StationNo) :
    ((s.presentInTurns turns x).station m).request = (s.station m).request :=
  State.takeClaims_keeps_of_mem (P := fun t => (t.station m).request = (s.station m).request)
    (fun t n _ ht => (t.request_setTarget n m _).trans ht) (fun t f _ ht => (t.request_grant f m).trans ht) false rfl

theorem State.noRecords_presentInTurns (s : State) (turns : List Turn) (x : Targets) :
    s.writer.tookRecords (s.presentInTurns turns x).writer [] :=
  State.takeClaims_keeps_of_mem (P := fun t => s.writer.tookRecords t.writer [])
    (fun t n _ ht => ImageWriter.tookRecords_trans ht (t.noRecords_setTarget n _))
    (fun t f _ ht => ImageWriter.tookRecords_trans ht (t.noRecords_grant f)) false s.writer.tookRecords_refl

theorem State.presented_presentTargets (s : State) (x : Targets) : s.presented (s.presentTargets x) := by
  refine ⟨s.restTurns.request_presentInTurns _ x, fun n hn => ?_⟩
  rw [State.target_presentTargets] at hn
  exact s.restTurns.station_presentInTurns s.nextTurns x hn.symm

theorem State.noRecords_presentTargets (s : State) (x : Targets) : s.writer.tookRecords (s.presentTargets x).writer [] :=
  s.restTurns.noRecords_presentInTurns _ x

end Sys2Proof.Machine
end

section
/-! PROOF. The spare search, case by case, and the availability report (O51). -/

namespace Sys2Proof.Machine

open Sys2Proof

/-! ### The conditions of the spare search (R112) -/

section search

variable {s : State} {t : Targets} {o sp : StationNo}

theorem spareFor_of_unset (h : (s.static o).spareSet = false) : spareFor s t o = .error .noSpareSet := by
  unfold spareFor
  rw [h]
  rfl

variable (hset : (s.static o).spareSet = true)
include hset

theorem spareFor_of_beyond (h : 64 ≤ (s.static o).spare) : spareFor s t o = .error .spareUnavailable := by
  unfold spareFor
  rw [hset, dif_neg (Nat.not_lt.mpr h)]
  rfl

variable (hsp : (s.static o).spare = sp.val)
include hsp

theorem spareFor_of_unavailable (h : s.available sp = false) : spareFor s t o = .error .spareUnavailable := by
  have below : (s.static o).spare < 64 := hsp ▸ sp.isLt
  have spare : (⟨(s.static o).spare, below⟩ : StationNo) = sp := Fin.ext hsp
  unfold spareFor
  rw [hset, dif_pos below]
  dsimp only
  rw [spare, h]
  rfl

variable (havail : s.available sp = true)
include havail

theorem spareFor_of_free (h : t.nth sp = none) : spareFor s t o = .ok sp := by
  have below : (s.static o).spare < 64 := hsp ▸ sp.isLt
  have spare : (⟨(s.static o).spare, below⟩ : StationNo) = sp := Fin.ext hsp
  unfold spareFor
  rw [hset, dif_pos below]
  dsimp only
  rw [spare, havail, h]
  rfl

variable {x : PlanTarget} (hx : t.nth sp = some x)
include hx

theorem spareFor_of_planned (h : x.role = .run ∨ x.role = .holdOff) : spareFor s t o = .error .sparePlanned := by
  have below : (s.static o).spare < 64 := hsp ▸ sp.isLt
  have spare : (⟨(s.static o).spare, below⟩ : StationNo) = sp := Fin.ext hsp
  unfold spareFor
  rw [hset, dif_pos below]
  dsimp only
  rw [spare, havail, hx]
  dsimp only
  obtain h | h := h <;> (rw [h]; rfl)

theorem spareFor_of_inUse {m : StationNo} (h : x.role = .spare m) : spareFor s t o = .error .spareInUse := by
  have below : (s.static o).spare < 64 := hsp ▸ sp.isLt
  have spare : (⟨(s.static o).spare, below⟩ : StationNo) = sp := Fin.ext hsp
  unfold spareFor
  rw [hset, dif_pos below]
  dsimp only
  rw [spare, havail, hx]
  dsimp only
  rw [h]
  rfl

end search

theorem spareNoneRecord_eq (s : State) (o : StationNo) (r : SpareReason) : spareNoneRecord s o r =
    { kind := .spareNone, stamp := s.stamp, subject := BitVec.ofNat 32 o.val, detailA := BitVec.ofNat 16 r.code
      detailB := BitVec.ofNat 32 ((if (s.static o).spareSet = true then (s.static o).spare else 255) % 256) } := by
  unfold spareNoneRecord mkRecord
  rw [placed_eq, Nat.pow_zero, Nat.one_mul]
  rfl

theorem spareEngagedRecord_eq (s : State) (sp o : StationNo) : spareEngagedRecord s sp o =
    { kind := .spareEngaged, stamp := s.stamp, subject := BitVec.ofNat 32 sp.val, detailA := 0
      detailB := BitVec.ofNat 32 o.val } := by
  unfold spareEngagedRecord mkRecord
  rw [placed_of_lt (by omega), Nat.pow_zero, Nat.one_mul]
  rfl

theorem searchOne_of_ok {s : State} {t : Targets} {o sp : StationNo} {x : PlanTarget} (hx : t.nth o = some x)
    (h : spareFor s t o = .ok sp) : searchOne s t o = (t.put sp (some (spareCopy o x)), [spareEngagedRecord s sp o]) := by
  unfold searchOne
  rw [hx]
  dsimp only
  rw [h]

theorem searchOne_of_error {s : State} {t : Targets} {o : StationNo} {x : PlanTarget} {r : SpareReason}
    (hx : t.nth o = some x) (h : spareFor s t o = .error r) : searchOne s t o = (t, [spareNoneRecord s o r]) := by
  unfold searchOne
  rw [hx]
  dsimp only
  rw [h]

/-! ### The search of a report (R114) -/

theorem State.nth_targets (s : State) (n : StationNo) : s.targets.nth n = (s.station n).target := Table.nth_tabulate _ _

theorem State.targetsDiffer_targets (s : State) : s.targetsDiffer s.targets = [] := by
  rw [List.eq_nil_iff_forall_not_mem]
  intro n hn
  exact (s.mem_targetsDiffer _ n).mp hn (s.nth_targets n).symm

theorem State.covered_iff (s : State) (o : StationNo) : s.covered o = true ↔
    ∃ m y, (s.station m).target = some y ∧ y.role = .spare o := by
  unfold State.covered
  simp [allStations, standsFor_eq_some]

theorem State.seekSpare_of_error {s : State} {o : StationNo} {x : PlanTarget} {r : SpareReason}
    (hx : (s.station o).target = some x) (h : spareFor s s.targets o = .error r) :
    s.seekSpare o = { s with writer := s.writer.hand (spareNoneRecord s o r) } := by
  have same : (s.hand [spareNoneRecord s o r]).targetsDiffer s.targets = [] := State.targetsDiffer_targets _
  unfold State.seekSpare State.presentInTurns
  rw [searchOne_of_error ((s.nth_targets o).trans hx) h, same]
  rfl

theorem State.seekSpare_of_ok {s : State} {o sp : StationNo} {x : PlanTarget} (hx : (s.station o).target = some x)
    (h : spareFor s s.targets o = .ok sp) : ((s.seekSpare o).station sp).target = some (spareCopy o x)
      ∧ (∀ m, m ≠ sp → (s.seekSpare o).station m = s.station m)
      ∧ s.writer.tookRecords (s.seekSpare o).writer [spareEngagedRecord s sp o] ∧ (s.seekSpare o).turns = s.turns := by
  have sought : s.seekSpare o =
      (s.hand [spareEngagedRecord s sp o]).presentInTurns [] (s.targets.put sp (some (spareCopy o x))) := by
    unfold State.seekSpare
    rw [searchOne_of_ok ((s.nth_targets o).trans hx) h]
  rw [sought]
  refine ⟨?_, fun m hm => ?_, ?_, ?_⟩
  · rw [State.target_presentInTurns, Table.nth_put_self]
  · exact State.station_presentOne (s.hand [spareEngagedRecord s sp o]) sp _ hm
  · exact ImageWriter.tookRecords_trans (s.writer.tookRecords_handAll _)
      (State.noRecords_presentInTurns (s.hand [spareEngagedRecord s sp o]) _ _)
  · exact State.turns_takeClaims (fun t n => State.turns_claim t n _) _ _ _

section report

variable {s : State} {r : AvailabilityReport} {rest : List AvailabilityReport} (hpart : s.part = .guard)
  (hreports : s.reports = r :: rest)
include hpart hreports

theorem exec_availabilityReport_of_normal (h : s.incident = none) :
    exec .availabilityReport s = .next { s with reports := rest } := by
  refine congrArg Host.Outcome.next ((inGuard_of hpart _).trans ?_)
  unfold State.availabilityReport
  rw [hreports, h]

variable {i : Incident} {v : Table Bool 64} (hincident : s.incident = some i) (hview : s.view = some v)
include hincident hview

theorem exec_availabilityReport_of_fire : exec .availabilityReport s =
    .next (if v.nth r.station = r.available then { s with reports := rest }
      else ({ s with reports := rest } : State).takeReport v r) := by
  refine congrArg Host.Outcome.next ((inGuard_of hpart _).trans ?_)
  unfold State.availabilityReport
  rw [hreports, hincident, hview]

end report

theorem State.takeReport_of_view {s : State} {r : AvailabilityReport} (v : Table Bool 64)
    (h : r.available = true ∨ isRun (s.station r.station).target = false ∨ s.covered r.station = true) :
    s.takeReport v r = { s with view := some (v.put r.station r.available) } := by
  refine if_neg ?_
  obtain h | h | h := h <;> rw [h] <;> simp

theorem State.takeReport_of_seek {s : State} {r : AvailabilityReport} (v : Table Bool 64) (h : r.available = false)
    (hrun : isRun (s.station r.station).target = true) (hcovered : ¬s.covered r.station = true) :
    s.takeReport v r = ({ s with view := some (v.put r.station r.available) } : State).seekSpare r.station := by
  rw [Bool.not_eq_true] at hcovered
  refine if_pos ?_
  rw [h, hrun, hcovered]
  rfl

/-- Settles O51: whether the report is news, whether it calls for a search, and the search's conditions in order. -/
theorem availabilityReportSeeksASpare : Obligations.AvailabilityReportSeeksASpare := by
  intro r rest s hpart hreports
  refine ⟨exec_availabilityReport_of_normal hpart hreports, fun i v hincident hview => ?_⟩
  intro seen coveredBy spare
  have run := exec_availabilityReport_of_fire hpart hreports hincident hview
  refine ⟨fun hsame => run.trans (by rw [if_pos hsame]), fun hnews => ?_⟩
  rw [if_neg hnews] at run
  have covered : seen.covered r.station = true ↔ ∃ m, coveredBy m := State.covered_iff seen r.station
  refine ⟨fun hquiet => run.trans ?_, fun x havail hx hrole hfree => ?_⟩
  · rw [State.takeReport_of_view (s := { s with reports := rest }) v (by rwa [← covered] at hquiet)]
  · have isRunning : isRun (s.station r.station).target = true := by
      unfold isRun
      rw [hx]
      exact beq_iff_eq.mpr hrole
    have uncovered : ¬seen.covered r.station = true := fun h => (covered.mp h).elim hfree
    rw [State.takeReport_of_seek (s := { s with reports := rest }) v havail isRunning uncovered] at run
    intro missed
    have misses : ∀ {reason : SpareReason} {number : Nat}, spareFor seen seen.targets r.station = .error reason →
        (if (s.static r.station).spareSet = true then spare else 255) = number → missed reason.code number := by
      intro reason number hspare hnumber
      refine run.trans (congrArg Host.Outcome.next ((State.seekSpare_of_error (s := seen) hx hspare).trans ?_))
      rw [spareNoneRecord_eq, ← hnumber]
      rfl
    refine ⟨fun hset => misses (spareFor_of_unset (s := seen) hset) (if_neg (by rw [hset]; nofun)),
      fun hset hbeyond => misses (spareFor_of_beyond (s := seen) hset hbeyond) (if_pos hset), fun sp hset hsp => ?_⟩
    have target : seen.targets.nth sp = (s.station sp).target := State.nth_targets seen sp
    refine ⟨fun hunavail => misses (spareFor_of_unavailable (s := seen) hset hsp hunavail) (if_pos hset),
      fun y hsavail hy => ⟨fun hplanned => ?_, fun m hspare => ?_⟩, fun hsavail hnone => ⟨_, run, ?_⟩⟩
    · exact misses (spareFor_of_planned (s := seen) hset hsp hsavail (target.trans hy) hplanned) (if_pos hset)
    · exact misses (spareFor_of_inUse (s := seen) hset hsp hsavail (target.trans hy) hspare) (if_pos hset)
    · obtain ⟨engaged, others, records, turns⟩ := State.seekSpare_of_ok (s := seen) hx
        (spareFor_of_free (s := seen) hset hsp hsavail (target.trans hnone))
      rw [spareEngagedRecord_eq, ← hsp] at records
      exact ⟨engaged, others, records, turns, State.stationsOnly_seekSpare seen r.station⟩

end Sys2Proof.Machine
end

section
/-! PROOF. The spare search as a whole: which station stands in for which, and the record of each search (R112, R122). -/

namespace Sys2Proof.Machine

open Sys2Proof

/-- A station is the spare that an original names. -/
def State.namesSpare (s : State) (n o : StationNo) : Bool := (s.static o).spareSet && decide ((s.static o).spare = n.val)

theorem State.namesSpare_iff (s : State) (n o : StationNo) : s.namesSpare n o = true ↔
    (s.static o).spareSet = true ∧ (s.static o).spare = n.val := by
  unfold State.namesSpare
  rw [Bool.and_eq_true, decide_eq_true_iff]

theorem isRun_iff (t : Option PlanTarget) : isRun t = true ↔ ∃ x, t = some x ∧ x.role = .run := by
  unfold isRun
  cases t <;> simp

theorem ne_none_of_isRun {t : Option PlanTarget} (h : isRun t = true) : t ≠ none := by
  obtain ⟨x, hx, -⟩ := (isRun_iff t).mp h
  rw [hx]
  nofun

/-! ### The targets after a search -/

section targets

variable {s : State} {t : Targets}

/-- A search for one original engages the station it names, when that is available and free. -/
theorem nth_searchOne {o : StationNo} {x : PlanTarget} (hx : t.nth o = some x) (n : StationNo) :
    (searchOne s t o).1.nth n =
      if (t.nth n = none ∧ s.available n = true) ∧ s.namesSpare n o = true then some (spareCopy o x) else t.nth n := by
  cases hspare : spareFor s t o with
  | ok sp =>
    obtain ⟨hset, hsp, havail, hnone⟩ := spareFor_ok hspare
    rw [searchOne_of_ok hx hspare, Table.nth_put]
    by_cases hn : n = sp
    · rw [if_pos hn, hn, if_pos ⟨⟨hnone, havail⟩, (s.namesSpare_iff sp o).mpr ⟨hset, hsp⟩⟩]
    · rw [if_neg hn, if_neg fun h => hn (Fin.ext (((s.namesSpare_iff n o).mp h.2).2.symm.trans hsp))]
  | error r =>
    rw [searchOne_of_error hx hspare, if_neg]
    rintro ⟨⟨hnone, havail⟩, hnames⟩
    obtain ⟨hset, hsp⟩ := (s.namesSpare_iff n o).mp hnames
    rw [spareFor_of_free hset hsp havail hnone] at hspare
    cases hspare

theorem nth_searchOne_of_some {o : StationNo} {x : PlanTarget} (hx : t.nth o = some x) {n : StationNo} (h : t.nth n ≠ none) :
    (searchOne s t o).1.nth n = t.nth n := by
  rw [nth_searchOne hx, if_neg fun hn => h hn.1.1]

/-- A search over originals with RUN targets engages every free and available station for the first of them that names
it. -/
theorem nth_searchSpares (l : List StationNo) (hrun : ∀ o ∈ l, isRun (t.nth o) = true) (n : StationNo) :
    (searchSpares s t l).1.nth n = if t.nth n = none ∧ s.available n = true then
      (l.find? (s.namesSpare n)).bind (fun o => (t.nth o).map (spareCopy o)) else t.nth n := by
  induction l generalizing t with
  | nil =>
    show t.nth n = _
    split
    · next h => exact h.1
    · rfl
  | cons o rest ih =>
    obtain ⟨x, hx, -⟩ := (isRun_iff _).mp (hrun o List.mem_cons_self)
    have original : ∀ m ∈ rest, (searchOne s t o).1.nth m = t.nth m := fun m hm =>
      nth_searchOne_of_some hx (ne_none_of_isRun (hrun m (List.mem_cons_of_mem _ hm)))
    have found : ∀ p : StationNo → Bool, (rest.find? p).bind (fun m => ((searchOne s t o).1.nth m).map (spareCopy m)) =
        (rest.find? p).bind (fun m => (t.nth m).map (spareCopy m)) := fun p => by
      cases hfind : rest.find? p with
      | none => rfl
      | some m => exact congrArg (Option.map (spareCopy m)) (original m (List.mem_of_find?_eq_some hfind))
    have later := ih (t := (searchOne s t o).1) fun m hm => by
      rw [original m hm]
      exact hrun m (List.mem_cons_of_mem _ hm)
    rw [found] at later
    refine later.trans ?_
    by_cases hfree : t.nth n = none ∧ s.available n = true
    · by_cases hnames : s.namesSpare n o = true
      · have engaged : (searchOne s t o).1.nth n = some (spareCopy o x) := by
          rw [nth_searchOne hx, if_pos ⟨hfree, hnames⟩]
        rw [if_pos hfree, List.find?_cons_of_pos hnames, engaged, if_neg fun h => by cases h.1]
        exact (congrArg (Option.map (spareCopy o)) hx).symm
      · have free : (searchOne s t o).1.nth n = t.nth n := by rw [nth_searchOne hx, if_neg fun h => hnames h.2]
        rw [if_pos hfree, List.find?_cons_of_neg hnames, free, if_pos hfree]
    · have kept : (searchOne s t o).1.nth n = t.nth n := by rw [nth_searchOne hx, if_neg fun h => hfree h.1]
      rw [if_neg hfree, kept, if_neg hfree]

/-- A search leaves the targets there are. -/
theorem nth_searchSpares_of_some (l : List StationNo) {n : StationNo} {x : PlanTarget} (h : t.nth n = some x) :
    (searchSpares s t l).1.nth n = some x := by
  obtain kept | ⟨hnone, -⟩ := searchSpares_keeps s l t n
  · rw [kept, h]
  · rw [h] at hnone
    cases hnone

theorem isRun_searchSpares (l : List StationNo) (n : StationNo) : isRun ((searchSpares s t l).1.nth n) = isRun (t.nth n) := by
  obtain kept | ⟨hnone, o, x, hx, hrole⟩ := searchSpares_keeps s l t n
  · rw [kept]
  · rw [hnone, hx]
    unfold isRun
    dsimp only
    rw [hrole]
    rfl

end targets

/-! ### The record of a search -/

section record

variable {s t : State} {kept : StationNo → Bool} {o sp : StationNo}

theorem State.searchRecord_of_unset (h : (s.static o).spareSet = false) :
    s.searchRecord t kept o = spareNoneRecord s o .noSpareSet := by
  unfold State.searchRecord
  rw [if_pos h, spareNoneRecord_eq, if_neg (by rw [h]; nofun)]
  rfl

variable (hset : (s.static o).spareSet = true)
include hset

theorem State.searchRecord_of_beyond (h : 64 ≤ (s.static o).spare) :
    s.searchRecord t kept o = spareNoneRecord s o .spareUnavailable := by
  unfold State.searchRecord
  rw [if_neg (by rw [hset]; nofun), dif_neg (Nat.not_lt.mpr h), spareNoneRecord_eq, if_pos hset]
  rfl

variable (hsp : (s.static o).spare = sp.val)
include hsp

theorem State.searchRecord_of_unavailable (h : s.available sp = false) :
    s.searchRecord t kept o = spareNoneRecord s o .spareUnavailable := by
  have below : (s.static o).spare < 64 := hsp ▸ sp.isLt
  have spare : (⟨(s.static o).spare, below⟩ : StationNo) = sp := Fin.ext hsp
  unfold State.searchRecord
  rw [if_neg (by rw [hset]; nofun), dif_pos below]
  dsimp only
  rw [spare, if_pos h, spareNoneRecord_eq, if_pos hset]
  rfl

variable (havail : s.available sp = true) {x : PlanTarget} (hx : (t.station sp).target = some x)
include havail hx

theorem State.searchRecord_of_engaged (h : x.role = .spare o) (hkept : kept sp = false) :
    s.searchRecord t kept o = spareEngagedRecord s sp o := by
  have below : (s.static o).spare < 64 := hsp ▸ sp.isLt
  have spare : (⟨(s.static o).spare, below⟩ : StationNo) = sp := Fin.ext hsp
  unfold State.searchRecord
  rw [if_neg (by rw [hset]; nofun), dif_pos below]
  dsimp only
  rw [spare, if_neg (by rw [havail]; nofun), hx, Option.map_some, h]
  dsimp only
  rw [if_pos ⟨rfl, hkept⟩, spareEngagedRecord_eq, hsp]

theorem State.searchRecord_of_inUse {m : StationNo} (h : x.role = .spare m) (hother : ¬(m = o ∧ kept sp = false)) :
    s.searchRecord t kept o = spareNoneRecord s o .spareInUse := by
  have below : (s.static o).spare < 64 := hsp ▸ sp.isLt
  have spare : (⟨(s.static o).spare, below⟩ : StationNo) = sp := Fin.ext hsp
  unfold State.searchRecord
  rw [if_neg (by rw [hset]; nofun), dif_pos below]
  dsimp only
  rw [spare, if_neg (by rw [havail]; nofun), hx, Option.map_some, h]
  dsimp only
  rw [if_neg hother, spareNoneRecord_eq, if_pos hset]
  rfl

theorem State.searchRecord_of_planned (h : x.role = .run ∨ x.role = .holdOff) :
    s.searchRecord t kept o = spareNoneRecord s o .sparePlanned := by
  have below : (s.static o).spare < 64 := hsp ▸ sp.isLt
  have spare : (⟨(s.static o).spare, below⟩ : StationNo) = sp := Fin.ext hsp
  unfold State.searchRecord
  rw [if_neg (by rw [hset]; nofun), dif_pos below]
  dsimp only
  rw [spare, if_neg (by rw [havail]; nofun), hx, Option.map_some]
  obtain h | h := h <;> (rw [h, spareNoneRecord_eq, if_pos hset]; rfl)

end record

section records

variable {s t' : State} {kept : StationNo → Bool} {t : Targets}

/-- The record a search makes for an original, read from the targets that stand after it. -/
theorem records_searchOne {o : StationNo} {x : PlanTarget} (hx : t.nth o = some x)
    (hkept : ∀ n, kept n = true → t.nth n ≠ none)
    (hspares : ∀ n y m, t.nth n = some y → y.role = .spare m → ¬(m = o ∧ kept n = false))
    (hlater : ∀ n y, (searchOne s t o).1.nth n = some y → (t'.station n).target = some y) :
    (searchOne s t o).2 = [s.searchRecord t' kept o] := by
  have later : ∀ {n y}, t.nth n = some y → (t'.station n).target = some y := fun {n y} h =>
    hlater n y (by rw [nth_searchOne_of_some hx (by rw [h]; nofun), h])
  have missed : ∀ {r}, spareFor s t o = .error r → s.searchRecord t' kept o = spareNoneRecord s o r →
      (searchOne s t o).2 = [s.searchRecord t' kept o] := fun hr hrecord => by
    rw [searchOne_of_error hx hr, hrecord]
  cases hset : (s.static o).spareSet with
  | false => exact missed (spareFor_of_unset hset) (State.searchRecord_of_unset hset)
  | true =>
    by_cases hbeyond : 64 ≤ (s.static o).spare
    · exact missed (spareFor_of_beyond hset hbeyond) (State.searchRecord_of_beyond hset hbeyond)
    · obtain ⟨sp, hsp⟩ : ∃ sp : StationNo, (s.static o).spare = sp.val := ⟨⟨_, Nat.not_le.mp hbeyond⟩, rfl⟩
      cases havail : s.available sp with
      | false => exact missed (spareFor_of_unavailable hset hsp havail) (State.searchRecord_of_unavailable hset hsp havail)
      | true =>
        cases hspare : t.nth sp with
        | none =>
          have found := spareFor_of_free hset hsp havail hspare
          have engaged : (searchOne s t o).1.nth sp = some (spareCopy o x) := by
            rw [searchOne_of_ok hx found, Table.nth_put_self]
          have unkept : kept sp = false := by
            rw [← Bool.not_eq_true]
            exact fun h => hkept sp h hspare
          rw [searchOne_of_ok hx found,
            State.searchRecord_of_engaged hset hsp havail (hlater sp _ engaged) rfl unkept]
        | some y =>
          cases hrole : y.role with
          | run =>
            exact missed (spareFor_of_planned hset hsp havail hspare (.inl hrole))
              (State.searchRecord_of_planned hset hsp havail (later hspare) (.inl hrole))
          | holdOff =>
            exact missed (spareFor_of_planned hset hsp havail hspare (.inr hrole))
              (State.searchRecord_of_planned hset hsp havail (later hspare) (.inr hrole))
          | spare m =>
            exact missed (spareFor_of_inUse hset hsp havail hspare hrole)
              (State.searchRecord_of_inUse hset hsp havail (later hspare) hrole (hspares sp y m hspare hrole))

/-- The records of a search, original by original. -/
theorem records_searchSpares (l : List StationNo) (hrun : ∀ o ∈ l, isRun (t.nth o) = true) (hnodup : l.Nodup)
    (hkept : ∀ n, kept n = true → t.nth n ≠ none)
    (hspares : ∀ n y m, t.nth n = some y → y.role = .spare m → kept n = true ∨ m ∉ l)
    (hfinal : ∀ n, (t'.station n).target = (searchSpares s t l).1.nth n) :
    (searchSpares s t l).2 = l.map (s.searchRecord t' kept) := by
  induction l generalizing t with
  | nil => rfl
  | cons o rest ih =>
    obtain ⟨x, hx, -⟩ := (isRun_iff _).mp (hrun o List.mem_cons_self)
    obtain ⟨hfirst, hrest⟩ := List.nodup_cons.mp hnodup
    have stays : ∀ {n}, t.nth n ≠ none → (searchOne s t o).1.nth n = t.nth n := nth_searchOne_of_some hx
    have head : (searchOne s t o).2 = [s.searchRecord t' kept o] := by
      refine records_searchOne hx hkept (fun n y m hn hrole h => ?_) fun n y hn => ?_
      · obtain ⟨rfl, hunkept⟩ := h
        obtain hk | hout := hspares n y m hn hrole
        · rw [hk] at hunkept
          cases hunkept
        · exact hout List.mem_cons_self
      · rw [hfinal]
        exact nth_searchSpares_of_some rest hn
    have tail := ih (t := (searchOne s t o).1)
      (fun m hm => by
        have run := hrun m (List.mem_cons_of_mem _ hm)
        rwa [stays (ne_none_of_isRun run)])
      hrest (fun n hn => by rw [stays (hkept n hn)]; exact hkept n hn)
      (fun n y m hn hrole => by
        rw [nth_searchOne hx] at hn
        split at hn
        · cases hn
          cases hrole
          exact .inr hfirst
        · exact (hspares n y m hn hrole).imp_right fun hout hm => hout (List.mem_cons_of_mem _ hm))
      hfinal
    show (searchOne s t o).2 ++ (searchSpares s (searchOne s t o).1 rest).2 = _
    rw [head, tail]
    rfl

end records

end Sys2Proof.Machine
end

section
/-! PROOF. A plan applied afresh: view, targets, spares, records (for O30, O31, O50), and the search of a boost. -/

namespace Sys2Proof.Machine

open Sys2Proof

theorem State.available_iff (s : State) (n : StationNo) : s.available n = true ↔ s.present n = true
    ∧ (s.station n).state ≠ .tripped ∧ (s.station n).state ≠ .locked
    ∧ (s.feeder (s.feederNo n)).supply = .present := by
  unfold State.available
  rw [Bool.and_eq_true, Bool.and_eq_true, Bool.not_eq_true', ← Bool.not_eq_true, LifeState.out_iff, s.supplied_iff,
    not_or, and_assoc, and_assoc]

/-- Records taken before a change that makes none. -/
theorem ImageWriter.tookRecords_quiet {w w' w'' : ImageWriter} {rs : List ReportRecord} (h : w.tookRecords w' rs)
    (h' : w'.tookRecords w'' []) : w.tookRecords w'' rs := by
  have both := ImageWriter.tookRecords_trans h h'
  rwa [List.append_nil] at both

/-! ### A search over the originals that a condition selects -/

theorem allStations_pairwise : allStations.Pairwise (· < ·) := List.pairwise_lt_finRange 64

section search

variable {s t : State} {T : Targets} {select : StationNo → Bool} {l : List StationNo}
  (hl : l = (uncoveredOriginals s T).filter select)
  (ht : ∀ n, (t.station n).target = (searchSpares s T l).1.nth n)

include hl in
theorem mem_originals {o : StationNo} : o ∈ l ↔ isRun (T.nth o) = true ∧ s.available o = false ∧ select o = true := by
  rw [hl, List.mem_filter, uncoveredOriginals, List.mem_filter, Bool.and_eq_true, Bool.not_eq_true']
  constructor
  · rintro ⟨⟨-, hrun, havail⟩, hselect⟩
    exact ⟨hrun, havail, hselect⟩
  · rintro ⟨hrun, havail, hselect⟩
    exact ⟨⟨List.mem_finRange o, hrun, havail⟩, hselect⟩

include hl in
theorem originals_pairwise : l.Pairwise (· < ·) := by
  rw [hl]
  exact (allStations_pairwise.filter _).filter _

include hl ht

/-- The stations searched for, read from the targets after the search. -/
theorem State.searched_eq : s.searched t select = l := by
  rw [hl]
  unfold State.searched uncoveredOriginals
  rw [List.filter_filter]
  refine List.filter_congr fun n _ => ?_
  rw [ht, isRun_searchSpares, Bool.and_comm (select n)]

omit hl in
theorem State.target_of_some {n : StationNo} {x : PlanTarget} (h : T.nth n = some x) : (t.station n).target = some x :=
  (ht n).trans (nth_searchSpares_of_some l h)

theorem State.target_of_none {n : StationNo} (h : T.nth n = none) : (t.station n).target =
    if s.available n = true then (l.find? (s.namesSpare n)).bind (fun o => (T.nth o).map (spareCopy o)) else none := by
  rw [ht, nth_searchSpares l fun o ho => ((mem_originals hl).mp ho).1]
  by_cases havail : s.available n = true
  · rw [if_pos ⟨h, havail⟩, if_pos havail]
  · rw [if_neg fun hn => havail hn.2, if_neg havail, h]

/-- A station without a target of its own holds none after a search, or stands in for the first original naming it. -/
theorem State.spareOrNone_of_none {n : StationNo} (h : T.nth n = none) : s.spareOrNone t select n := by
  have target := State.target_of_none hl ht h
  by_cases havail : s.available n = true
  · rw [if_pos havail] at target
    cases hfind : l.find? (s.namesSpare n) with
    | none => exact .inl (by rw [target, hfind]; rfl)
    | some o =>
      obtain ⟨hnames, before, after, hsplit, hbefore⟩ := List.find?_eq_some_iff_append.mp hfind
      have horiginal : o ∈ l := List.mem_of_find?_eq_some hfind
      obtain ⟨x, hx, -⟩ := (isRun_iff _).mp ((mem_originals hl).mp horiginal).1
      obtain ⟨hset, hspare⟩ := (s.namesSpare_iff n o).mp hnames
      refine .inr ⟨o, x, ?_, hset, hspare, fun m hm hmset hmspare => ?_, havail, State.target_of_some ht hx, ?_⟩
      · rw [State.searched_eq hl ht]
        exact horiginal
      · rw [State.searched_eq hl ht, hsplit, List.mem_append, List.mem_cons] at hm
        have order := originals_pairwise hl
        rw [hsplit, List.pairwise_append, List.pairwise_cons] at order
        obtain hm | rfl | hm := hm
        · have unnamed := hbefore m hm
          rw [(s.namesSpare_iff n m).mpr ⟨hmset, hmspare⟩] at unnamed
          cases unnamed
        · exact le_refl _
        · exact (order.2.1.1 m hm).le
      · rw [target, hfind]
        exact congrArg (Option.map (spareCopy o)) hx
  · rw [if_neg havail] at target
    exact .inl target

/-- A search leaves no available station without a target that one of its originals names. -/
theorem State.target_of_named {o sp : StationNo} (ho : o ∈ l) (hset : (s.static o).spareSet = true)
    (hsp : (s.static o).spare = sp.val) (havail : s.available sp = true) : (t.station sp).target ≠ none := by
  cases hspare : T.nth sp with
  | some x => rw [State.target_of_some ht hspare]; nofun
  | none =>
    rw [State.target_of_none hl ht hspare, if_pos havail]
    cases hfind : l.find? (s.namesSpare sp) with
    | none => exact absurd ((s.namesSpare_iff sp o).mpr ⟨hset, hsp⟩) (List.find?_eq_none.mp hfind o ho)
    | some m =>
      obtain ⟨x, hx, -⟩ := (isRun_iff _).mp ((mem_originals hl).mp (List.mem_of_find?_eq_some hfind)).1
      rw [Option.bind_some, hx]
      nofun

/-- The records of a search, read from the targets after it. -/
theorem State.searchRecords_eq {kept : StationNo → Bool} (hkept : ∀ n, kept n = true → T.nth n ≠ none)
    (hspares : ∀ n x m, T.nth n = some x → x.role = .spare m → kept n = true) :
    (searchSpares s T l).2 = (s.searched t select).map (s.searchRecord t kept) := by
  rw [State.searched_eq hl ht]
  exact records_searchSpares l (fun o ho => ((mem_originals hl).mp ho).1)
    ((originals_pairwise hl).imp fun h => h.ne) hkept (fun n x m hn hx => .inl (hspares n x m hn hx)) ht

end search

/-! ### A plan applied (R103) -/

theorem State.nth_planTargets (s : State) (i : Incident) (n : StationNo) :
    (planTargets s.copy i).nth n = planTarget s.copy i n := Table.nth_tabulate _ _

theorem planTarget_of_governing {s : State} {i : Incident} {n : StationNo} {e : PoolEntry} (hpresent : s.present n = true)
    (h : governing (entriesFor s.copy i.plan i.boost n) = some e) : planTarget s.copy i n = some (targetOf i.flow e) := by
  unfold planTarget
  rw [if_pos (show (Setup.station s.copy n.val).present = true from hpresent), h]
  rfl

theorem planTarget_of_none {s : State} {i : Incident} {n : StationNo}
    (h : s.present n = false ∨ governing (entriesFor s.copy i.plan i.boost n) = none) : planTarget s.copy i n = none := by
  unfold planTarget
  split
  · next hpresent =>
    obtain h | h := h
    · exact absurd hpresent (by rw [show (Setup.station s.copy n.val).present = false from h]; nofun)
    · rw [h]
      rfl
  · rfl

theorem State.planApplied_applyPlan (s : State) {i : Incident} (hboost : i.boost = false) (record : ReportRecord) :
    s.planApplied (s.applyPlan i record) i record := by
  have originals : uncoveredOriginals s (planTargets s.copy i) =
      (uncoveredOriginals s (planTargets s.copy i)).filter (fun _ => true) := (List.filter_eq_self.mpr fun _ _ => rfl).symm
  have final := s.target_applyPlan i record
  have frame := (s.stationsOnly_applyPlan i record).1
  refine ⟨by rw [frame], ⟨s.viewNow, by rw [frame], fun n => ?_⟩, by rw [frame]; rfl, fun n e hpresent he => ?_, fun n hn => ?_,
    fun o sp ho hset hsp havail => ?_, ?_, ?_⟩
  · rw [← s.available_iff]
    exact Iff.of_eq (congrArg (· = true) (Table.nth_tabulate _ _))
  · refine State.target_of_some final ?_
    rw [s.nth_planTargets]
    exact planTarget_of_governing hpresent (by rw [hboost]; exact he)
  · refine State.spareOrNone_of_none originals final ?_
    rw [s.nth_planTargets]
    exact planTarget_of_none (by rw [hboost]; exact hn)
  · rw [State.searched_eq originals final] at ho
    exact State.target_of_named originals final ho hset hsp havail
  · exact State.presented_presentTargets _ _
  · have records := State.searchRecords_eq originals final (kept := fun _ => false) nofun fun n x m hn hx => by
      have own := standsFor_planTarget s.copy i n
      rw [← s.nth_planTargets, standsFor_eq_some.mpr ⟨x, hn, hx⟩] at own
      cases own
    rw [← records]
    unfold State.applyPlan
    exact ImageWriter.tookRecords_quiet (s.writer.tookRecords_handAll _) (State.noRecords_presentTargets
      { s with
        incident := some i, view := some s.viewNow, airflow := enterPending s.copy s.airflow i s.tenths
        writer := s.writer.handAll
          (record :: (searchSpares s (planTargets s.copy i) (uncoveredOriginals s (planTargets s.copy i))).2) } _)

end Sys2Proof.Machine
end

section
/-! PROOF. Re-plan, adoption, release, and the automatic declaration (O31, O32, O50). -/

namespace Sys2Proof.Machine

open Sys2Proof

/-! ### A plan applied by a request or an automatic declaration -/

/-- A plan applied to a state whose access has completed, answered, the escalator told so many times. -/
def State.planAnswered (s : State) (i : Incident) (record : ReportRecord) (notices kind : Nat) (a : Answer) : State :=
  answered kind ({ s.delivered.applyPlan i record with
    notices := (s.delivered.applyPlan i record).notices + notices }, a)

/-- Beside the incident, its view, the notices and the monitor, only stations and what they report change. -/
theorem State.planAnswered_frame (s : State) (i : Incident) (record : ReportRecord) (notices kind : Nat) (a : Answer) :
    let t := s.planAnswered i record notices kind a
    t.notices = s.notices + notices ∧ Replied s t kind a ∧ Completed s t
      ∧ ({ s with
            mem := t.mem, inFlight := none, requestCount := t.requestCount, incident := t.incident
            view := t.view, notices := t.notices, airflow := t.airflow } : State).stationsOnly t := by
  obtain ⟨frame, took⟩ := s.delivered.stationsOnly_applyPlan i record
  unfold State.planAnswered
  generalize s.delivered.applyPlan i record = v at frame took ⊢
  have only := ImageWriter.took_trans took (v.writer.took_append (.reply (replyWord kind a (countAfter v.requestCount))))
  rw [frame]
  refine ⟨rfl, ⟨rfl, _, rfl⟩, Completed.of_finish rfl rfl, rfl, ?_⟩
  rw [frame] at only
  exact only

theorem State.planAnswered_applied (s : State) {i : Incident} (hboost : i.boost = false) (record : ReportRecord)
    (notices kind : Nat) (a : Answer) :
    let t := s.planAnswered i record notices kind a
    s.planApplied t i record ∧ t.notices = s.notices + notices ∧ Replied s t kind a ∧ Completed s t
      ∧ ({ s with
            mem := t.mem, inFlight := none, requestCount := t.requestCount, incident := t.incident
            view := t.view, notices := t.notices, airflow := t.airflow } : State).stationsOnly t := by
  obtain ⟨incident, view, airflow, governs, spares, named, presented, records⟩ :=
    s.delivered.planApplied_applyPlan hboost record
  exact ⟨⟨incident, view, airflow, governs, spares, named, presented,
    ImageWriter.tookRecords_quiet records (ImageWriter.tookRecords_append _ _)⟩,
    s.planAnswered_frame i record notices kind a⟩

theorem dirCode_flowOf {code : Nat} (h : code ≤ 1) : dirCode (flowOf code) = code := by
  unfold flowOf
  split
  · next h1 => rw [h1]; rfl
  · have h0 : code = 0 := by omega
    rw [h0]
    rfl

theorem Setup.planFor_eq (c : Cells Word) (segment : Nat) (flow : Dir) :
    Setup.planFor c segment flow = (Setup.word c (104 + (2 * segment + dirCode flow))).toNat := rfl

theorem declaredRecord_eq (s : State) (i : Incident) : declaredRecord s i =
    { kind := .incidentDeclared, stamp := s.stamp, subject := BitVec.ofNat 32 i.number, detailA := BitVec.ofNat 16 i.plan
      detailB := BitVec.ofNat 32 (i.segment % 256 + 256 * dirCode i.flow + 512 * i.origin.code) } := by
  have origin : i.origin.code < 2 ^ 1 := by cases i.origin <;> decide
  unfold declaredRecord mkRecord
  rw [placed_eq, placed_of_lt (dirCode_lt _), placed_of_lt origin, Nat.pow_zero, Nat.one_mul]
  rfl

theorem replannedRecord_eq (s : State) (old i : Incident) : replannedRecord s old i =
    { kind := .incidentReplanned, stamp := s.stamp, subject := BitVec.ofNat 32 i.number, detailA := BitVec.ofNat 16 i.plan
      detailB := BitVec.ofNat 32 (i.segment % 256 + 256 * dirCode i.flow + 65536 * (old.plan % 256)) } := by
  unfold replannedRecord mkRecord
  rw [placed_eq, placed_of_lt (dirCode_lt _), placed_eq, Nat.pow_zero, Nat.one_mul]
  rfl

theorem adoptedRecord_eq (s : State) (old i : Incident) : adoptedRecord s old i =
    { kind := .incidentAdopted, stamp := s.stamp, subject := BitVec.ofNat 32 i.number, detailA := BitVec.ofNat 16 i.plan
      detailB := BitVec.ofNat 32 (i.segment % 256 + 256 * dirCode i.flow + 65536 * (old.number % 65536)) } := by
  unfold adoptedRecord mkRecord
  rw [placed_eq, placed_of_lt (dirCode_lt _), placed_eq, Nat.pow_zero, Nat.one_mul]
  rfl

theorem releasedRecord_eq (s : State) (i : Incident) : releasedRecord s i =
    { kind := .incidentReleased, stamp := s.stamp, subject := BitVec.ofNat 32 i.number, detailA := 0
      detailB := BitVec.ofNat 32 i.declaredTime } := by
  have time : BitVec.ofNat 32 (stampOf i.declaredTime).toNat = BitVec.ofNat 32 i.declaredTime := by
    rw [BitVec.ofNat_toNat, BitVec.setWidth_eq]
    rfl
  unfold releasedRecord mkRecord
  rw [time]
  rfl

/-! ### REPLAN and adoption (R104, R105) -/

theorem State.takeReplan_of_number {s : State} {i : Incident} {number segment : Nat} {flow : Dir} (h : s.incident = some i)
    (hnumber : i.number = number) : s.takeReplan number segment flow = (s.replanIncident i segment flow, .done) := by
  unfold State.takeReplan
  rw [h]
  exact if_pos hnumber

theorem State.takeDeclare_of_automatic {s : State} {i : Incident} {number segment : Nat} {flow : Dir}
    (h : s.incident = some i) (horigin : i.origin = .automatic) :
    s.takeDeclare number segment flow = ((s.adoptIncident i number segment flow).notify, .done) := by
  unfold State.takeDeclare
  rw [h]
  dsimp only
  rw [horigin]

/-- Settles O31: the plan moved to is applied afresh. -/
theorem replanAndAdoptionMoveTheIncident : Obligations.ReplanAndAdoptionMoveTheIncident := by
  intro i s hrequest hmin hmax hsegment hflow hincident moved place
  have code := dirCode_flowOf hflow
  have plan : movedIncident s.delivered i (s.arg 2) (flowOf (s.arg 3)) = moved := by
    unfold movedIncident
    rw [Setup.planFor_eq, code]
    rfl
  refine ⟨fun haction hnumber => ?_, fun haction horigin => ?_⟩
  · have run := State.incident_of_request hrequest (.inr (.inl ⟨rfl, rfl⟩)) (.inl haction)
    have record : replannedRecord s.delivered i moved =
        { kind := .incidentReplanned, stamp := s.stamp, subject := BitVec.ofNat 32 i.number
          detailA := BitVec.ofNat 16 moved.plan, detailB := BitVec.ofNat 32 (place + 65536 * (i.plan % 256)) } := by
      rw [replannedRecord_eq, show dirCode moved.flow = s.arg 3 from code]
      rfl
    have taken : s.delivered.takeIncident (s.arg 0) (s.arg 1) (s.arg 2) (s.arg 3) =
        (s.delivered.applyPlan moved (replannedRecord s.delivered i moved), .done) := by
      rw [haction, State.takeIncident_of_replan (s := s.delivered) (checkNumber_eq_none (by decide) (by decide) hmin hmax)
        hsegment hflow, State.takeReplan_of_number (s := s.delivered) hincident hnumber, State.replanIncident, plan]
    rw [taken, record] at run
    obtain ⟨applied, notices, replied, completed, only⟩ := s.planAnswered_applied (i := moved) rfl _ 0 1 .done
    exact ⟨_, run, applied, notices, replied, completed, by rw [notices] at only; exact only⟩
  · have run := State.incident_of_request hrequest (.inl ⟨rfl, rfl⟩) (.inl haction)
    let adopted : Incident := { moved with number := s.arg 1, origin := .declared }
    have record : adoptedRecord s.delivered i adopted =
        { kind := .incidentAdopted, stamp := s.stamp, subject := BitVec.ofNat 32 (s.arg 1)
          detailA := BitVec.ofNat 16 moved.plan, detailB := BitVec.ofNat 32 (place + 65536 * (i.number % 65536)) } := by
      rw [adoptedRecord_eq, show dirCode adopted.flow = s.arg 3 from code]
      rfl
    have taken : s.delivered.takeIncident (s.arg 0) (s.arg 1) (s.arg 2) (s.arg 3) =
        ((s.delivered.applyPlan adopted (adoptedRecord s.delivered i adopted)).notify, .done) := by
      rw [haction, State.takeIncident_of_declare (s := s.delivered) (checkNumber_eq_none (by decide) (by decide) hmin hmax)
        hsegment hflow, State.takeDeclare_of_automatic (s := s.delivered) hincident horigin, State.adoptIncident,
        adoptedIncident, plan]
    rw [taken, record] at run
    exact ⟨_, run, s.planAnswered_applied (i := adopted) rfl _ 1 1 .done⟩

/-! ### RELEASE (R106, R121) -/

theorem State.takeRelease_of_number {s : State} {i : Incident} {number : Nat} (h : s.incident = some i)
    (hnumber : i.number = number) : s.takeRelease number = (s.releaseIncident i, .done) := by
  unfold State.takeRelease
  rw [h]
  exact if_pos hnumber

/-- The state in which the targets are taken back (R121). -/
def State.released (s : State) (i : Incident) : State :=
  { s with
    incident := none, view := none, airflow := { s.airflow with hold := none, deadline := none }
    writer := s.writer.hand (releasedRecord s i) }

theorem State.releaseIncident_eq (s : State) (i : Incident) :
    s.releaseIncident i = (s.released i).presentTargets (Vector.replicate 64 none) := rfl

/-- Beside the incident, its view and the monitor, a release changes only stations and what they report. -/
theorem State.releaseAnswered_frame (s : State) (i : Incident) (kind : Nat) (a : Answer) :
    let t := answered kind (s.delivered.releaseIncident i, a)
    t.incident = none ∧ t.view = none ∧ t.airflow = { s.airflow with hold := none, deadline := none }
      ∧ Replied s t kind a ∧ Completed s t
      ∧ ({ s with
            mem := t.mem, inFlight := none, requestCount := t.requestCount, incident := none
            view := none, airflow := t.airflow } : State).stationsOnly t := by
  obtain ⟨frame, took⟩ := (s.delivered.released i).stationsOnly_presentTargets (Vector.replicate 64 none)
  rw [State.releaseIncident_eq]
  generalize (s.delivered.released i).presentTargets (Vector.replicate 64 none) = v at frame took ⊢
  have only := ImageWriter.took_trans (ImageWriter.took_trans (s.writer.took_hand (releasedRecord s.delivered i)) took)
    (v.writer.took_append (.reply (replyWord kind a (countAfter v.requestCount))))
  rw [frame]
  refine ⟨rfl, rfl, rfl, ⟨rfl, _, rfl⟩, Completed.of_finish rfl rfl, rfl, ?_⟩
  rw [frame] at only
  exact only

/-- Settles O32: the targets are taken back from the stations. -/
theorem releaseEndsTheIncident : Obligations.ReleaseEndsTheIncident := by
  intro s hrequest haction hmin hmax
  have run := State.incident_of_request hrequest (.inr (.inr ⟨rfl, rfl⟩)) (.inl haction)
  have taken : s.delivered.takeIncident (s.arg 0) (s.arg 1) (s.arg 2) (s.arg 3) = s.delivered.takeRelease (s.arg 1) := by
    rw [haction]
    exact State.takeIncident_of_release (checkNumber_eq_none (by decide) (by decide) hmin hmax)
  rw [taken] at run
  refine ⟨fun hnone => ⟨_, run, ?_⟩, fun i hincident => ⟨fun hother => ⟨_, run, ?_⟩, fun hnumber => ⟨_, run, ?_⟩⟩⟩
  · rw [State.takeRelease_of_none (s := s.delivered) hnone]
    exact refused_only s 1 _
  · rw [State.takeRelease_of_other (s := s.delivered) hincident hother]
    exact refused_only s 1 _
  · rw [State.takeRelease_of_number (s := s.delivered) hincident hnumber]
    obtain ⟨incident, view, airflow, replied, completed, only⟩ := s.releaseAnswered_frame i 1 .done
    refine ⟨incident, view, fun n => ?_, airflow, ?_, ?_, replied, completed, only⟩
    · exact ((s.delivered.released i).target_presentTargets _ n).trans (Table.nth_replicate none n)
    · exact (s.delivered.released i).presented_presentTargets (Vector.replicate 64 none)
    · have records : s.writer.tookRecords (s.delivered.releaseIncident i).writer [releasedRecord s.delivered i] :=
        ImageWriter.tookRecords_quiet (s.writer.tookRecords_handAll [releasedRecord s.delivered i])
          ((s.delivered.released i).noRecords_presentTargets _)
      rw [releasedRecord_eq] at records
      exact ImageWriter.tookRecords_quiet records (ImageWriter.tookRecords_append _ _)

/-! ### The automatic declaration and its answer (R107, R149, R151) -/

theorem ImageWriter.count_reply_joins {w w' : ImageWriter} (h : Relation.ReflTransGen ImageWriter.Joins w w') (word : Word) :
    w'.workList.count (.reply word) = w.workList.count (.reply word) :=
  ImageWriter.Joins.keeps (P := fun u => u.workList.count (.reply word) = w.workList.count (.reply word))
    (fun u r hu => (u.count_hand r (x := .reply word) nofun nofun).trans hu)
    (fun u n hu => by rw [ImageWriter.count_placeOnce, if_neg fun h => nomatch h.1]; exact hu) h rfl

/-- A plan applied with the oldest automatic request taken. -/
theorem State.stationsOnly_automatic (s : State) (i : Incident) (record : ReportRecord) (rest : List AutoRequest)
    (answers : List AutoAnswer) :
    let t := { s.applyPlan i record with autoRequests := rest, answers := answers }
    ({ s with
      autoRequests := rest, answers := answers, incident := t.incident, view := t.view, airflow := t.airflow } :
        State).stationsOnly t := by
  obtain ⟨frame, took⟩ := s.stationsOnly_applyPlan i record
  generalize s.applyPlan i record = v at frame took ⊢
  refine ⟨?_, took⟩
  rw [frame]

section answer

variable {s : State} {x : AutoAnswer} {rest : List AutoAnswer} (h : s.answers = x :: rest)
include h

theorem State.declarationAnswer_of_taken (htaken : x.taken = true) :
    s.declarationAnswer = { s with answers := rest, alarms := s.alarms.coverAndIdle } := by
  unfold State.declarationAnswer
  rw [h]
  exact if_pos htaken

theorem State.declarationAnswer_of_refused (htaken : x.taken = false) : s.declarationAnswer =
    { s with answers := rest, writer := s.writer.hand (escalationNotTakenRecord s x.request) } := by
  unfold State.declarationAnswer
  rw [h]
  exact if_neg (by rw [htaken]; nofun)

end answer

section automatic

variable {s : State} {r : AutoRequest} {rest : List AutoRequest} (h : s.autoRequests = r :: rest)
include h

theorem State.automaticDeclaration_of_normal (hnone : s.incident = none) : s.automaticDeclaration =
    { s.declareIncident r.number .automatic r.segment r.flow with
      autoRequests := rest, answers := s.answers ++ [{ taken := true, request := r }] } := by
  unfold State.automaticDeclaration
  rw [h, hnone]

theorem State.automaticDeclaration_of_fire (hfire : s.incident ≠ none) : s.automaticDeclaration =
    { s with autoRequests := rest, answers := s.answers ++ [{ taken := false, request := r }] } := by
  obtain ⟨i, hi⟩ := Option.ne_none_iff_exists'.mp hfire
  unfold State.automaticDeclaration
  rw [h, hi]

end automatic

/-- Settles O50: the request, the two answers, and the notice. -/
theorem automaticDeclarationIsAnswered : Obligations.AutomaticDeclarationIsAnswered := by
  refine ⟨fun r rest s hpart hrequests => ?_, fun s hpart => ?_⟩
  · intro plan
    refine ⟨fun hnone => ?_, fun hfire => ?_⟩
    · let i := newIncident s r.number .automatic r.segment r.flow
      refine ⟨_, congrArg Host.Outcome.next ((inGuard_of hpart _).trans
        (State.automaticDeclaration_of_normal hrequests hnone)), ?_, fun w => ?_, ?_⟩
      · have record : declaredRecord s i =
            { kind := .incidentDeclared, stamp := s.stamp, subject := BitVec.ofNat 32 r.number
              detailA := BitVec.ofNat 16 plan
              detailB := BitVec.ofNat 32 (r.segment % 256 + 256 * dirCode r.flow + 512) } := declaredRecord_eq s i
        rw [← record]
        exact s.planApplied_applyPlan rfl (declaredRecord s i)
      · exact ImageWriter.count_reply_joins (Claims.plan s i (declaredRecord s i) rfl).joins w
      · exact s.stationsOnly_automatic i (declaredRecord s i) rest _
    · exact congrArg Host.Outcome.next ((inGuard_of hpart _).trans
        (State.automaticDeclaration_of_fire hrequests hfire))
  · intro covered
    refine ⟨fun x rest hanswers htaken => ?_, fun x rest hanswers htaken => ?_, fun k hnotices => ?_⟩ <;>
      refine congrArg Host.Outcome.next ((inGuard_of hpart _).trans ?_)
    · exact State.declarationAnswer_of_taken hanswers htaken
    · exact State.declarationAnswer_of_refused hanswers htaken
    · unfold State.declarationNotice
      rw [hnotices]
      rfl

end Sys2Proof.Machine
end

section
/-! PROOF. The governing entry, a station's entries, and the declaration in NORMAL (O30). -/

namespace Sys2Proof.Machine

open Sys2Proof

/-! ### The order of R99 -/

/-- One entry ranks ahead of another, wherever they stand in the pool. -/
def PoolEntry.outranks (a b : PoolEntry) : Prop :=
  (a.role = 2 ∧ (b.role ≠ 2 ∨ a.rank < b.rank))
    ∨ (a.role ≠ 2 ∧ b.role ≠ 2 ∧ (b.speed < a.speed
        ∨ (a.speed = b.speed ∧ (a.tier < b.tier ∨ (a.tier = b.tier ∧ a.rank < b.rank)))))

theorem governsOver_iff (a b : PoolEntry) : governsOver a b = true ↔ PoolEntry.outranks a b := by
  unfold governsOver PoolEntry.outranks roleHoldOff
  by_cases ha : a.role = 2 <;> by_cases hb : b.role = 2 <;> simp [ha, hb]

theorem PoolEntry.outranks_trans {a b c : PoolEntry} (h : PoolEntry.outranks a b) (h' : PoolEntry.outranks b c) :
    PoolEntry.outranks a c := by
  unfold PoolEntry.outranks at *
  omega

/-- What does not rank ahead of an entry that does not rank ahead of a third does not rank ahead of that either. -/
theorem PoolEntry.not_outranks_trans {a b c : PoolEntry} (h : ¬PoolEntry.outranks a b) (h' : ¬PoolEntry.outranks b c) :
    ¬PoolEntry.outranks a c := by
  unfold PoolEntry.outranks at *
  omega

theorem governing_cons_of_some {e b : PoolEntry} {rest : List PoolEntry} (h : governing rest = some b) :
    governing (e :: rest) = if governsOver b e then some b else some e := by
  rw [governing, h]

theorem governing_cons_of_none {e : PoolEntry} {rest : List PoolEntry} (h : governing rest = none) :
    governing (e :: rest) = some e := by
  rw [governing, h]

/-- The governing entry ranks ahead of every earlier one, and none behind it ranks ahead of it. -/
theorem governing_splits {l : List PoolEntry} {e : PoolEntry} (h : governing l = some e) :
    ∃ before after, l = before ++ e :: after ∧ (∀ x ∈ before, PoolEntry.outranks e x)
      ∧ ∀ x ∈ after, ¬PoolEntry.outranks x e := by
  induction l generalizing e with
  | nil => cases h
  | cons first rest ih =>
    cases hrest : governing rest with
    | none =>
      rw [governing_cons_of_none hrest] at h
      cases h
      exact ⟨[], rest, rfl, nofun, by rw [governing_eq_none.mp hrest]; nofun⟩
    | some b =>
      obtain ⟨before, after, hsplit, hbefore, hafter⟩ := ih hrest
      rw [governing_cons_of_some hrest] at h
      split at h
      · next hover =>
        rw [governsOver_iff] at hover
        cases h
        refine ⟨first :: before, after, by rw [hsplit]; rfl, fun x hx => ?_, hafter⟩
        obtain rfl | hx := List.mem_cons.mp hx
        · exact hover
        · exact hbefore x hx
      · next hunder =>
        rw [governsOver_iff] at hunder
        cases h
        refine ⟨[], rest, rfl, nofun, fun x hx hover => ?_⟩
        rw [hsplit, List.mem_append, List.mem_cons] at hx
        obtain hx | rfl | hx := hx
        · exact hunder (PoolEntry.outranks_trans (hbefore x hx) hover)
        · exact hunder hover
        · exact PoolEntry.not_outranks_trans (hafter x hx) hunder hover

theorem governing_eq_some (l : List PoolEntry) (e : PoolEntry) : governing l = some e ↔
    ∃ before after, l = before ++ e :: after ∧ (∀ x ∈ before, PoolEntry.outranks e x)
      ∧ ∀ x ∈ after, ¬PoolEntry.outranks x e := by
  refine ⟨governing_splits, ?_⟩
  rintro ⟨before, after, rfl, hbefore, hafter⟩
  induction before with
  | nil =>
    cases hrest : governing after with
    | none => exact governing_cons_of_none hrest
    | some b =>
      obtain ⟨_, _, hsplit, -, -⟩ := governing_splits hrest
      have hb : b ∈ after := by rw [hsplit]; simp
      exact (governing_cons_of_some hrest).trans (if_neg (mt (governsOver_iff b e).mp (hafter b hb)))
  | cons x before ih =>
    have later := ih fun y hy => hbefore y (List.mem_cons_of_mem _ hy)
    exact (governing_cons_of_some later).trans (if_pos ((governsOver_iff e x).mpr (hbefore x List.mem_cons_self)))

/-! ### The entries in force for a station (R98) -/

theorem inForce_iff (boost : Bool) (e : PoolEntry) : inForce boost e = true ↔ e.tier = 1 ∨ (e.tier = 2 ∧ boost = true) := by
  unfold inForce
  rw [Bool.or_eq_true, Bool.and_eq_true, decide_eq_true_iff, decide_eq_true_iff]

/-- An entry applies to its subject, or to the group that its subject heads. -/
theorem appliesTo_iff (c : Cells Word) (e : PoolEntry) (n : StationNo) :
    let f := fun (k hi lo : Nat) => (Setup.word c k).toNat / 2 ^ lo % 2 ^ (hi + 1 - lo)
    let present := fun k => f (256 + 4 * k) 0 0 = 1
    let leader := fun k => f (257 + 4 * k) 7 0
    appliesTo c e n = true ↔
      if present e.subject ∧ leader e.subject = e.subject ∧ f (256 + 4 * e.subject) 1 1 = 1
        then present n.val ∧ leader n.val = e.subject else n.val = e.subject := by
  intro f present leader
  have heads : Setup.headsGang c e.subject = true ↔
      present e.subject ∧ leader e.subject = e.subject ∧ f (256 + 4 * e.subject) 1 1 = 1 := Setup.headsGang_iff c e.subject
  unfold appliesTo
  by_cases hheads : Setup.headsGang c e.subject = true
  · rw [if_pos hheads, if_pos (heads.mp hheads), Bool.and_eq_true, decide_eq_true_iff, Setup.station_present_iff,
      Setup.station_leader, and_comm]
    rfl
  · rw [if_neg hheads, if_neg (mt heads.mpr hheads), decide_eq_true_iff]

theorem targetOf_eq (flow : Dir) (e : PoolEntry) : targetOf flow e =
    { role := if e.role = 2 then .holdOff else .run, dir := flow, rank := e.rank
      speed := if e.role = 2 then .off else if e.speed = 2 then .high else .low
      tier := if e.role = 2 then 1 else e.tier } := by
  unfold targetOf roleHoldOff poolSpeed
  by_cases h : e.role = 2
  · simp only [h, if_true]
  · simp only [h, if_false]

theorem Setup.station_present_mod (c : Cells Word) (n : Nat) :
    (Setup.station c n).present = true ↔ (Setup.word c (256 + 4 * n)).toNat % 2 = 1 := by
  rw [Setup.station_present_iff, bits_lowest]

/-! ### DECLARE in NORMAL (R103) -/

theorem State.takeDeclare_of_normal {s : State} {number segment : Nat} {flow : Dir} (h : s.incident = none) :
    s.takeDeclare number segment flow = ((s.declareIncident number .declared segment flow).notify, .done) := by
  unfold State.takeDeclare
  rw [h]

/-- Settles O30: the order of the entries, the entries of a station, and the plan applied. -/
theorem declareInNormalCreatesTheIncident : Obligations.DeclareInNormalCreatesTheIncident := by
  refine ⟨fun l e => governing_eq_some l e, fun l => governing_eq_none, fun c plan boost n => ?entries, targetOf_eq,
    fun c i n => ?target, fun s hrequest haction hmin hmax hsegment hflow hnone => ?declare⟩
  case entries =>
    intro f header entry present leader
    refine List.filter_congr fun e _ => eq_decide_of_iff ?_
    rw [Bool.and_eq_true, inForce_iff]
    exact and_congr_right fun _ => appliesTo_iff c e n
  case target =>
    unfold planTarget
    exact if_congr (Setup.station_present_mod c n.val) rfl rfl
  case declare =>
    intro flow plan
    let i : Incident :=
      { number := s.arg 1, origin := .declared, segment := s.arg 2, flow := flow, plan := plan
        declaredTime := s.tenths, boost := false, airflow := .pending }
    have code : dirCode flow = s.arg 3 := dirCode_flowOf hflow
    have created : newIncident s.delivered (s.arg 1) .declared (s.arg 2) (flowOf (s.arg 3)) = i := by
      unfold newIncident
      rw [Setup.planFor_eq, show dirCode (flowOf (s.arg 3)) = s.arg 3 from code]
      rfl
    have record : declaredRecord s.delivered i =
        { kind := .incidentDeclared, stamp := s.stamp, subject := BitVec.ofNat 32 (s.arg 1)
          detailA := BitVec.ofNat 16 plan, detailB := BitVec.ofNat 32 (s.arg 2 % 256 + 256 * s.arg 3) } := by
      rw [declaredRecord_eq, show dirCode i.flow = s.arg 3 from code]
      rfl
    have taken : s.delivered.takeIncident (s.arg 0) (s.arg 1) (s.arg 2) (s.arg 3) =
        ((s.delivered.applyPlan i (declaredRecord s.delivered i)).notify, .done) := by
      rw [haction, State.takeIncident_of_declare (s := s.delivered) (checkNumber_eq_none (by decide) (by decide) hmin hmax)
        hsegment hflow, State.takeDeclare_of_normal (s := s.delivered) hnone, State.declareIncident, created]
    have run := State.incident_of_request hrequest (.inl ⟨rfl, rfl⟩) (.inl haction)
    rw [taken, record] at run
    exact ⟨_, run, s.planAnswered_applied (i := i) rfl _ 1 1 .done⟩

end Sys2Proof.Machine
end

section
/-! PROOF. The airflow deadline: boost, or SHORT (O48). -/

namespace Sys2Proof.Machine

open Sys2Proof

/-! ### The targets of a boost (R116, R117) -/

theorem standsFor_of_role {t : Option PlanTarget} {x : PlanTarget} {o : StationNo} (h : t = some x) (hrole : x.role = .spare o) :
    standsFor t = some o := standsFor_eq_some.mpr ⟨x, h, hrole⟩

theorem standsFor_of_isRun {t : Option PlanTarget} (h : isRun t = true) : standsFor t = none := by
  obtain ⟨x, hx, hrole⟩ := (isRun_iff t).mp h
  unfold standsFor
  rw [hx]
  dsimp only
  rw [hrole]

theorem followOriginal_of_run {t : Targets} {n : StationNo} {o : StationNo} {y : PlanTarget} (h : standsFor (t.nth n) = some o)
    (ho : t.nth o = some y) (hrole : y.role = .run) : followOriginal t n = some (spareCopy o y) := by
  unfold followOriginal
  rw [h]
  dsimp only
  rw [ho]
  exact if_pos hrole

theorem followOriginal_of_not_run {t : Targets} {n : StationNo} {o : StationNo} (h : standsFor (t.nth n) = some o)
    (ho : isRun (t.nth o) = false) : followOriginal t n = t.nth n := by
  unfold followOriginal
  rw [h]
  dsimp only
  cases hy : t.nth o with
  | none => rfl
  | some y =>
    refine if_neg fun hrole => ?_
    rw [(isRun_iff _).mpr ⟨y, hy, hrole⟩] at ho
    cases ho

/-- Following its original does not make a station run, nor changes the target of one that runs. -/
theorem isRun_followOriginal (t : Targets) (n : StationNo) : isRun (followOriginal t n) = isRun (t.nth n) := by
  cases h : standsFor (t.nth n) with
  | none => rw [followOriginal_of_none h]
  | some o =>
    have follows : standsFor (followOriginal t n) = some o := (standsFor_followOriginal t n).trans h
    have unrun : ∀ x, standsFor x = some o → isRun x = false := fun x hx => by
      rw [← Bool.not_eq_true]
      intro hrun
      rw [standsFor_of_isRun hrun] at hx
      cases hx
    rw [unrun _ follows, unrun _ h]

/-- The targets of a boost before any spare follows its original. -/
def State.entryTargets (s : State) (i : Incident) : Targets := Table.tabulate (boostedTarget s i)

section boost

variable {s : State} {i : Incident} {n : StationNo}

theorem State.nth_boostedTargets (s : State) (i : Incident) (n : StationNo) :
    (boostedTargets s i).nth n = followOriginal (s.entryTargets i) n := Table.nth_tabulate _ _

theorem State.nth_entryTargets (s : State) (i : Incident) (n : StationNo) :
    (s.entryTargets i).nth n = boostedTarget s i n := Table.nth_tabulate _ _

theorem boostedTarget_of_spare (h : (standsFor (s.station n).target).isSome = true) :
    boostedTarget s i n = (s.station n).target := if_pos h

theorem boostedTarget_of_none (h : standsFor (s.station n).target = none) : boostedTarget s i n = planTarget s.copy i n :=
  if_neg (by rw [h]; nofun)

/-- The spares of a boost are those engaged before. -/
theorem standsFor_boostedTargets (s : State) (i : Incident) (n : StationNo) :
    standsFor ((boostedTargets s i).nth n) = standsFor (s.station n).target := by
  rw [s.nth_boostedTargets, standsFor_followOriginal, s.nth_entryTargets]
  cases h : standsFor (s.station n).target with
  | none => rw [boostedTarget_of_none h, standsFor_planTarget]
  | some o => rw [boostedTarget_of_spare (by rw [h]; rfl), h]

/-- A station that was no spare takes what the plan gives it. -/
theorem nth_boostedTargets_of_none (h : standsFor (s.station n).target = none) :
    (boostedTargets s i).nth n = planTarget s.copy i n := by
  have own : standsFor ((s.entryTargets i).nth n) = none := by
    rw [s.nth_entryTargets, boostedTarget_of_none h, standsFor_planTarget]
  rw [s.nth_boostedTargets, followOriginal_of_none own, s.nth_entryTargets, boostedTarget_of_none h]

section spare

variable {x : PlanTarget} {o : StationNo} (hx : (s.station n).target = some x) (hrole : x.role = .spare o)
include hx hrole

theorem nth_entryTargets_of_spare : (s.entryTargets i).nth n = some x := by
  have stands : (standsFor (s.station n).target).isSome = true := by rw [standsFor_of_role hx hrole]; rfl
  rw [s.nth_entryTargets, boostedTarget_of_spare stands, hx]

/-- A spare copies the RUN target its original has after the boost. -/
theorem nth_boostedTargets_of_run {y : PlanTarget} (hy : (boostedTargets s i).nth o = some y) (hrun : y.role = .run) :
    (boostedTargets s i).nth n = some { y with role := .spare o } := by
  have running : isRun ((boostedTargets s i).nth o) = true := (isRun_iff _).mpr ⟨y, hy, hrun⟩
  rw [s.nth_boostedTargets, isRun_followOriginal] at running
  rw [s.nth_boostedTargets, followOriginal_of_none (standsFor_of_isRun running)] at hy
  rw [s.nth_boostedTargets]
  exact followOriginal_of_run (standsFor_of_role (nth_entryTargets_of_spare hx hrole) hrole) hy hrun

/-- A spare keeps its target when its original has no RUN target after the boost. -/
theorem nth_boostedTargets_of_kept (h : isRun ((boostedTargets s i).nth o) = false) :
    (boostedTargets s i).nth n = some x := by
  have entry : (s.entryTargets i).nth n = some x := nth_entryTargets_of_spare hx hrole
  rw [s.nth_boostedTargets, isRun_followOriginal] at h
  rw [s.nth_boostedTargets, followOriginal_of_not_run (standsFor_of_role entry hrole) h, entry]

end spare

end boost

/-! ### The deadline (R131, R132) -/

theorem boostRecord_eq (s : State) (i : Incident) : boostRecord s i =
    { kind := .boostApplied, stamp := s.stamp, subject := BitVec.ofNat 32 i.number, detailA := BitVec.ofNat 16 i.plan
      detailB := BitVec.ofNat 32 ((Setup.planEntries s.copy i.plan).filter (fun x => x.tier == 2)).length } := rfl

theorem airflowShortRecord_eq (s : State) (i : Incident) : airflowShortRecord s i =
    { kind := .airflowShort, stamp := s.stamp, subject := BitVec.ofNat 32 i.number
      detailA := BitVec.ofNat 16 (i.plan % 256 + 256 * failingReason (firstFailing s.copy s.airflow i)
        + if i.boost = true then 4096 else 0)
      detailB := BitVec.ofNat 32 (failingDetail s.copy (firstFailing s.copy s.airflow i)) } := by
  unfold airflowShortRecord mkRecord
  rw [placed_eq, placed_of_lt (failingReason_lt _), placed_bitOf, Nat.pow_zero, Nat.one_mul]
  rfl

section deadline

variable {s : State} {i : Incident} (hincident : s.incident = some i) (hphase : i.airflow = .pending)
  (hdeadline : s.airflow.deadline = some 0)
include hincident hphase hdeadline

theorem State.deadlineExpiry_of_due : s.deadlineExpiry =
    if i.boost = false ∧ tierTwo s.copy i.plan ≠ [] then s.applyBoost i
    else { s with
      incident := some { i with airflow := .short }
      airflow := { s.airflow with deadline := none }
      writer := s.writer.hand (airflowShortRecord s i) } := by
  unfold State.deadlineExpiry
  rw [hincident]
  exact if_pos ⟨hphase, by rw [hdeadline]; rfl⟩

end deadline

/-- The search of a boost. -/
def State.boostSearch (s : State) (i : Incident) : Targets × List ReportRecord :=
  searchSpares s (boostedTargets s { i with boost := true }) (boostOriginals s (boostedTargets s { i with boost := true }))

/-- The state in which the targets of a boost are presented. -/
def State.boosted (s : State) (i : Incident) : State :=
  { s with
    incident := some { i with boost := true }
    airflow := { s.airflow with deadline := some (Setup.plan s.copy i.plan).deadline }
    writer := s.writer.handAll (boostRecord s i :: (s.boostSearch i).2) }

theorem State.applyBoost_eq (s : State) (i : Incident) :
    s.applyBoost i = (s.boosted i).presentTargets (s.boostSearch i).1 := rfl

section applied

variable (s : State) (i : Incident)

/-- The target a station holds after a boost. -/
theorem State.target_applyBoost (n : StationNo) : ((s.applyBoost i).station n).target = (s.boostSearch i).1.nth n :=
  (s.boosted i).target_presentTargets (s.boostSearch i).1 n

theorem State.stationsOnly_applyBoost : (s.boosted i).stationsOnly (s.applyBoost i) :=
  (s.boosted i).stationsOnly_presentTargets (s.boostSearch i).1

theorem State.boosted_frame : let t := s.applyBoost i
    t.incident = some { i with boost := true }
      ∧ t.airflow = { s.airflow with deadline := some (Setup.plan s.copy i.plan).deadline }
      ∧ ({ s with incident := t.incident, airflow := t.airflow } : State).stationsOnly t := by
  obtain ⟨frame, took⟩ := s.stationsOnly_applyBoost i
  generalize s.applyBoost i = t at frame took ⊢
  have only := ImageWriter.took_trans (s.writer.took_handAll (boostRecord s i :: (s.boostSearch i).2)) took
  rw [frame]
  exact ⟨rfl, rfl, rfl, only⟩

theorem State.tookRecords_applyBoost :
    s.writer.tookRecords (s.applyBoost i).writer (boostRecord s i :: (s.boostSearch i).2) :=
  ImageWriter.tookRecords_quiet (s.writer.tookRecords_handAll _)
    ((s.boosted i).noRecords_presentTargets (s.boostSearch i).1)

end applied

/-- The stations searched for in a boost: the unavailable ones that gained a RUN target. -/
theorem boostOriginals_eq (s : State) (t : Targets) :
    boostOriginals s t = (uncoveredOriginals s t).filter (fun n => !isRun (s.station n).target) := rfl

theorem isRun_applyBoost (s : State) (i : Incident) (n : StationNo) :
    isRun ((s.applyBoost i).station n).target = isRun ((boostedTargets s { i with boost := true }).nth n) := by
  rw [s.target_applyBoost i n]
  exact isRun_searchSpares _ n

/-- An engaged spare after a boost (R116). -/
theorem target_applyBoost_of_spare {s : State} {n o : StationNo} {x : PlanTarget} (i : Incident)
    (hx : (s.station n).target = some x) (hrole : x.role = .spare o) :
    (∀ y, ((s.applyBoost i).station o).target = some y → y.role = .run →
        ((s.applyBoost i).station n).target = some { y with role := .spare o })
      ∧ (isRun ((s.applyBoost i).station o).target = false → ((s.applyBoost i).station n).target = some x) := by
  have final := s.target_applyBoost i
  refine ⟨fun y hy hrun => ?_, fun hnot => ?_⟩
  · have running := (isRun_applyBoost s i o).symm.trans ((isRun_iff _).mpr ⟨y, hy, hrun⟩)
    obtain ⟨z, hz, -⟩ := (isRun_iff _).mp running
    have same : some z = some y := (State.target_of_some final hz).symm.trans hy
    cases same
    exact State.target_of_some final (nth_boostedTargets_of_run hx hrole hz hrun)
  · rw [isRun_applyBoost] at hnot
    exact State.target_of_some final (nth_boostedTargets_of_kept hx hrole hnot)

/-- Settles O48: the boost's targets and search, or the record of SHORT. -/
theorem deadlineBoostsOrFallsShort : Obligations.DeadlineBoostsOrFallsShort := by
  intro i s hpart hincident hphase hdeadline tierTwoEntries governs
  have run := State.deadlineExpiry_of_due hincident hphase hdeadline
  rw [show tierTwo s.copy i.plan = tierTwoEntries from rfl] at run
  refine ⟨fun hboost htier => ?boost, fun hnot => ?short⟩
  case short =>
    rw [if_neg hnot] at run
    exact ⟨_, congrArg Host.Outcome.next ((inGuard_of hpart _).trans run), _, _, s.showsFailing_firstFailing i,
      by rw [airflowShortRecord_eq]⟩
  case boost =>
    rw [if_pos ⟨hboost, htier⟩] at run
    refine ⟨_, congrArg Host.Outcome.next ((inGuard_of hpart _).trans run), ?_⟩
    beta_reduce
    intro gained kept
    have originals := boostOriginals_eq s (boostedTargets s { i with boost := true })
    have final := s.target_applyBoost i
    obtain ⟨incident, airflow, only⟩ := s.boosted_frame i
    refine ⟨incident, airflow, only, (s.boosted i).presented_presentTargets _, fun n x hown hgoverns => ?_,
      fun n x o hx hrole => target_applyBoost_of_spare i hx hrole, fun n hown hgoverns => ?_,
      fun o sp ho hset hsp havail => ?_, ?_⟩
    · refine State.target_of_some final ((nth_boostedTargets_of_none hown).trans ?_)
      by_cases hpresent : s.present n = true
      · exact planTarget_of_governing hpresent ((if_pos hpresent).symm.trans hgoverns)
      · cases (if_neg hpresent).symm.trans hgoverns
    · refine State.spareOrNone_of_none originals final ((nth_boostedTargets_of_none hown).trans (planTarget_of_none ?_))
      by_cases hpresent : s.present n = true
      · exact .inr ((if_pos hpresent).symm.trans hgoverns)
      · exact .inl (Bool.not_eq_true _ ▸ hpresent)
    · rw [show gained = _ from State.searched_eq originals final] at ho
      exact State.target_of_named originals final ho hset hsp havail
    · have records := State.searchRecords_eq originals final (kept := kept)
        (fun n hn hnone => by
          have stands := standsFor_boostedTargets s { i with boost := true } n
          rw [hnone] at stands
          rw [show kept n = (standsFor (s.station n).target).isSome from rfl, ← stands] at hn
          cases hn)
        (fun n x m hn hx => by
          have stands := standsFor_boostedTargets s { i with boost := true } n
          rw [standsFor_of_role hn hx] at stands
          exact congrArg Option.isSome stands.symm)
      rw [← records]
      exact s.tookRecords_applyBoost i

end Sys2Proof.Machine
end
